-- ==== Sys2Proof/Word.lean ====
section
/-! DEFINITION. The word types of the CK-240: bytes of frames and transactions, 16-bit keys and counts. -/

namespace Sys2Proof

/-- A byte of a command frame, a response, a payload or a link frame. -/
abbrev Byte := BitVec 8

/-- A 16-bit count or field: cycle number, generation, check code (R45, R69, R126). -/
abbrev Word16 := BitVec 16

/-- A key, the 16-bit name of a record (R1). -/
abbrev Key := BitVec 16

/-- A block index of the pool, 0 to 2047 (R19). The bound is an invariant of the machine. -/
abbrev Block := Nat

/-- A chain: an ordered list of block indices (R19). -/
abbrev Chain := List Block

end Sys2Proof
end

