-- ==== Sys2Proof/Syntax.lean ====
section
/-! DEFINITION. The commands and events of the CK-240: one constructor per row of spec/opcode_table.json. -/

namespace Sys2Proof

/-- The two ends of a CSN low period (R144, R145). A transaction whose fall is not given by itself has its
fall at the instant of its rise (DESIGN CHOICE, log 2). -/
inductive CsnEdge where
  /-- CSN falls: a low period opens and the port status byte is sampled (R145). -/
  | fall
  /-- CSN rises before one whole byte has arrived (R144, R146). -/
  | rise
  deriving DecidableEq, Repr

/-- One command or event of the device, each a row of spec/opcode_table.json. For a port transaction, `args` are
the whole bytes the port received after the command code, however many the host clocked (R144, R149). -/
inductive Instr where
  /-- POWER_ON_RESET: RSTN is held low (R151). -/
  | powerOnReset
  /-- POWER_ON_INITIALISATION: RSTN rises (R151). -/
  | powerOnInitialisation
  /-- INITIALISATION_END: the 2 ms of initialisation expire (R151). -/
  | initialisationEnd
  /-- EMPTY_TRANSACTION: a CSN low period in which no whole byte arrives (R146); `fall` is its opening edge. -/
  | emptyTransaction (edge : CsnEdge)
  /-- UNKNOWN: a transaction whose command code is not in the command table (R149). -/
  | unknown (code : Byte) (args : List Byte)
  /-- STATUS, code 0x01 (R152). -/
  | status (args : List Byte)
  /-- RESULT, code 0x02 (R148). -/
  | result (args : List Byte)
  /-- STOP, code 0x03 (R114). -/
  | stop (args : List Byte)
  /-- OPEN, code 0x10 (R38). -/
  | openSession (args : List Byte)
  /-- WRITE, code 0x11 (R41). -/
  | write (args : List Byte)
  /-- COMMIT, code 0x12 (R43). -/
  | commit (args : List Byte)
  /-- CANCEL, code 0x13 (R50). -/
  | cancel (args : List Byte)
  /-- RETIRE, code 0x18 (R55). -/
  | retire (args : List Byte)
  /-- RETIRE GROUP, code 0x19 (R58). -/
  | retireGroup (args : List Byte)
  /-- RETIRE_GROUP_VISIT: one step of the RETIRE GROUP walk (R59). -/
  | retireGroupVisit
  /-- FEED, code 0x20 (R97). -/
  | feed (args : List Byte)
  /-- READ, code 0x28 (R153). -/
  | read (args : List Byte)
  /-- QUERY, code 0x29 (R154). -/
  | query (args : List Byte)
  /-- NOTICE, code 0x2A (R141). -/
  | notice (args : List Byte)
  /-- START, code 0x30 (R109). -/
  | start (args : List Byte)
  /-- CONFIGURE, code 0x31 (R156). -/
  | configure (args : List Byte)
  /-- CLEAR, code 0x3F (R157). -/
  | clear (args : List Byte)
  /-- CLEAR_COMPLETION: the end of CLEAR's 2 ms (R157). -/
  | clearCompletion
  /-- KEY_UP_TIMER_EXPIRY (R110). -/
  | keyUpTimerExpiry
  /-- CLR_ASSERTED (R111). -/
  | clrAsserted
  /-- CLEAR_WAIT_TIMER_EXPIRY (R111). -/
  | clearWaitTimerExpiry
  /-- LOSS_OF_CLR: CLR deasserts while the link is RUNNING (R118). -/
  | lossOfClr
  /-- PACING_TIMER_EXPIRY (R113). -/
  | pacingTimerExpiry
  /-- CYCLE_START (R72). -/
  | cycleStart
  /-- CYCLE_START_FRAME_END (R89). -/
  | cycleStartFrameEnd
  /-- FRAME_CHOICE (R74). -/
  | frameChoice
  /-- RECORD_FRAME_END (R81). -/
  | recordFrameEnd
  /-- WITHDRAWAL_FRAME_END (R63). -/
  | withdrawalFrameEnd
  /-- CYCLE_END_FRAME_END (R117). -/
  | cycleEndFrameEnd
  /-- ABORT_FRAME_END (R116). -/
  | abortFrameEnd
  /-- COMMAND_COMPLETION: the accepted command completes (R147). -/
  | commandCompletion
  /-- CLR_DEASSERTION: CLR deasserts while the link is not RUNNING (R118). -/
  | clrDeassertion
  /-- CYC_PULSE_END: one byte-time after a cycle start (R108). -/
  | cycPulseEnd
  deriving DecidableEq, Repr

/-- The command code byte of a port transaction (R158); absent for the rows that are not transactions and for a
transaction that carries no whole byte. -/
def Instr.code : Instr → Option Byte
  | .powerOnReset => none
  | .powerOnInitialisation => none
  | .initialisationEnd => none
  | .emptyTransaction _ => none
  | .unknown c _ => some c
  | .status _ => some 0x01#8
  | .result _ => some 0x02#8
  | .stop _ => some 0x03#8
  | .openSession _ => some 0x10#8
  | .write _ => some 0x11#8
  | .commit _ => some 0x12#8
  | .cancel _ => some 0x13#8
  | .retire _ => some 0x18#8
  | .retireGroup _ => some 0x19#8
  | .retireGroupVisit => none
  | .feed _ => some 0x20#8
  | .read _ => some 0x28#8
  | .query _ => some 0x29#8
  | .notice _ => some 0x2A#8
  | .start _ => some 0x30#8
  | .configure _ => some 0x31#8
  | .clear _ => some 0x3F#8
  | .clearCompletion => none
  | .keyUpTimerExpiry => none
  | .clrAsserted => none
  | .clearWaitTimerExpiry => none
  | .lossOfClr => none
  | .pacingTimerExpiry => none
  | .cycleStart => none
  | .cycleStartFrameEnd => none
  | .frameChoice => none
  | .recordFrameEnd => none
  | .withdrawalFrameEnd => none
  | .cycleEndFrameEnd => none
  | .abortFrameEnd => none
  | .commandCompletion => none
  | .clrDeassertion => none
  | .cycPulseEnd => none

end Sys2Proof
end

