-- ==== Sys2Proof/Decode.lean ====
section
/-! DEFINITION. The row that the bytes of a command frame spell (R158), and the command a table word spells. No row of
spec/opcode_table.json gives bits (the rows are operations and events of a block), so no word spells a command. The arguments of the
command port's frames are read by Sys2Proof/Machine/Operands.lean. -/

namespace Sys2Proof

/-- The row of the transaction whose whole bytes are these: byte 0 is the command code of the command table, the others are the
arguments (R144, R149, R158); a transaction without a whole byte is EMPTY_TRANSACTION's rise. -/
def instrOfFrame : List Byte → Instr
  | [] => .emptyTransaction .rise
  | code :: args =>
    match code.toNat with
    | 0x01 => .status args
    | 0x02 => .result args
    | 0x03 => .stop args
    | 0x10 => .openSession args
    | 0x11 => .write args
    | 0x12 => .commit args
    | 0x13 => .cancel args
    | 0x18 => .retire args
    | 0x19 => .retireGroup args
    | 0x20 => .feed args
    | 0x28 => .read args
    | 0x29 => .query args
    | 0x2A => .notice args
    | 0x30 => .start args
    | 0x31 => .configure args
    | 0x3F => .clear args
    | _ => .unknown code args

/-- The command that the word `w` of `nbits` bits spells by the table's bits: none, since no row has bits. -/
def decodeTableWord (_nbits _w : Nat) : Option Instr := none

end Sys2Proof
end

