-- ==== Sys2Proof/Config.lean ====
section
/-! DEFINITION. The fixed sizes of the CK-240, and the one free value (log 21). -/

namespace Sys2Proof.Config

/-- Blocks in the pool (R19). -/
def poolBlocks : Nat := 2048

/-- Bytes in a block (R19, R21). -/
def blockBytes : Nat := 32

/-- The most entries the directory holds (R7). -/
def directoryRoom : Nat := 256

/-- What a byte of the pool that nothing has written holds. DESIGN CHOICE, log 10: the spec gives no
contents after power-on, and R21 keeps such a byte from the line and from READ. -/
def unwrittenByte : Byte := 0x00#8

/-- Whether the n-th CLR assertion that ends a CLEAR_WAIT falls on a byte boundary of the line (R111, R112): a free value, since no rule
ties the pin to the bytes (log 21). -/
opaque clrOnByteBoundary : Nat → Bool

end Sys2Proof.Config
end

