-- ==== Sys2Proof/Machine/State.lean ====
section
/-! DEFINITION. The state of the CK-240: every piece of state the spec names, block by block, as plain data;
the state at power-on reset; the (empty) list of faults and the one refusal. -/

namespace Sys2Proof.Machine

/-! ## Records and the directory (01_records_and_the_directory.md) -/

/-- A change slot's number (R32). -/
abbrev SlotNo := Fin 4

/-- The kind of a record (R3). -/
inductive Kind where
  | stored
  | feed
  deriving DecidableEq, Repr

/-- The notice flags of an entry, a set of six (R10). -/
structure Flags where
  confirmed : Bool
  overdue : Bool
  superseded : Bool
  feedDue : Bool
  feedStale : Bool
  withdrawn : Bool
  deriving DecidableEq, Repr

/-- A pending confirmation (R8, R133, R134): its age, 0 to 15, and whether it has raised OVERDUE. -/
structure Confirm where
  age : Nat
  overdueRaised : Bool
  deriving DecidableEq, Repr

/-- The fields a LIVE entry of kind FEED holds besides those of every LIVE record (R94). -/
structure Feed where
  /-- The buffer FEED writes. -/
  back : Chain
  /-- Payload bytes the fill in progress has placed in the back chain, 0 to length less 1. -/
  fill : Nat
  /-- The back chain holds a complete fill not yet swapped in. -/
  fresh : Bool
  deriving DecidableEq, Repr

/-- The fields of a LIVE entry that R8 gives. The feed fields are present exactly when the kind is FEED (R8), so the
kind is read from them (`Live.kind`, DEDUCED, log 15). -/
structure Live where
  /-- Repetition class, 0 to 3 (R4). -/
  cls : Nat
  /-- Version, 0 to 255, wrapping (R6). -/
  version : Byte
  /-- Payload length, 0 to 1024 (R5). -/
  length : Nat
  /-- The chain the record's frames are sent from (R8). -/
  front : Chain
  feed : Option Feed
  confirm : Option Confirm
  slot : Option SlotNo
  deriving DecidableEq, Repr

/-- What a WITHDRAWING or SPENT entry keeps of its last LIVE version (R8). -/
structure Last where
  kind : Kind
  cls : Nat
  version : Byte
  length : Nat
  deriving DecidableEq, Repr

/-- The state of an entry with the fields R8 gives it in that state; a field R8 marks absent has no place. -/
inductive Body where
  /-- STAGED: created by OPEN on a new key, no committed version (R11). -/
  | staged (slot : SlotNo)
  /-- LIVE (R13). -/
  | live (v : Live)
  /-- WITHDRAWING: with the count of withdrawal frames still to complete (R15, R16). -/
  | withdrawing (last : Last) (remaining : Nat) (slot : Option SlotNo)
  /-- SPENT: waits for NOTICE (R17). -/
  | spent (last : Last)
  deriving DecidableEq, Repr

/-- A directory entry (R8): the fields present in every state, and the body of its state. -/
structure Entry where
  key : Key
  /-- Sent-this-cycle: a frame for this key has completed in the current cycle (R77). -/
  sent : Bool
  flags : Flags
  body : Body
  deriving DecidableEq, Repr

/-- The directory: entries in strictly ascending key order, at most 256 (R7). -/
abbrev Directory := List Entry

/-! ## The block pool (02_the_block_pool.md) -/

/-- Pool contents as (address, byte) pairs in one canonical form: addresses strictly rising, no byte equal to what an
unlisted address reads as. Position p of block b has address 32 * b + p (R21). -/
abbrev Memory := List Host.Cell

/-- The block pool (R19, R20, R28). -/
structure Pool where
  /-- The free list, head first (R20). -/
  free : List Block
  /-- The on-air hold: empty, or one chain (R28). -/
  hold : Option Chain
  mem : Memory
  deriving DecidableEq, Repr

/-! ## Change slots (03_change_sessions.md) -/

/-- What a non-FREE change slot holds (table before R32). The spare chain is present exactly when the kind is FEED, so
the kind is read from it (`Session.kind`, DEDUCED, log 15); FILLING or FULL is read from the fill (R32). -/
structure Session where
  key : Key
  cls : Nat
  /-- The length L given at OPEN. -/
  length : Nat
  staging : Chain
  spare : Option Chain
  /-- Bytes written so far, 0 to L. -/
  fill : Nat
  deriving DecidableEq, Repr

/-- The four change slots; an absent session is a FREE slot (R32). -/
abbrev Slots := Vector (Option Session) 4

/-! ## The playout engine (05_the_carousel_cycle.md) -/

/-- The engine's phase (R70). -/
inductive Phase where
  | between
  | carry
  | walk
  deriving DecidableEq, Repr

/-- Where a frame was chosen from (R80). -/
inductive Source where
  | carry
  | walk
  deriving DecidableEq, Repr

/-- The fields a Record frame fixes at its frame start (R80). -/
structure RecordFrame where
  key : Key
  source : Source
  version : Byte
  cls : Nat
  kind : Kind
  length : Nat
  stale : Bool
  chain : Chain
  deriving DecidableEq, Repr

/-- The fields a Withdrawal frame fixes at its frame start (R62, R80). -/
structure WithdrawalFrame where
  key : Key
  source : Source
  version : Byte
  /-- Remaining-after: the entry's withdraw remaining count less 1. -/
  after : Nat
  deriving DecidableEq, Repr

/-- The values a Cycle Start frame samples (R72, R129). -/
structure CycleStartFrame where
  cycle : Word16
  generation : Word16
  liveCount : Nat
  carryCount : Nat
  first : Bool
  truncatedPrevious : Bool
  deriving DecidableEq, Repr

/-- The values a Cycle End frame carries (R86, R132). -/
structure CycleEndFrame where
  cycle : Word16
  frames : Word16
  truncated : Bool
  deriving DecidableEq, Repr

/-- The frame on air, of any type (R80: all five types are on air in the same sense). -/
inductive AirFrame where
  | cycleStart (f : CycleStartFrame)
  | record (f : RecordFrame)
  | withdrawal (f : WithdrawalFrame)
  | cycleEnd (f : CycleEndFrame)
  | abort
  deriving DecidableEq, Repr

/-- The playout engine's state (R69). -/
structure Engine where
  cycle : Word16
  generation : Word16
  phase : Phase
  /-- Budget remaining, in frame units. -/
  budget : Nat
  firstSent : Bool
  frames : Word16
  /-- The walk cursor: absent is "start", below every valid key. -/
  cursor : Option Key
  /-- The carry-over queue, head first (R85). -/
  queue : List Key
  /-- The carry-served list (R77). -/
  served : List Key
  onAir : Option AirFrame
  /-- The bare-cycle count (R87). -/
  bare : Nat
  truncPrev : Bool
  deriving DecidableEq, Repr

/-! ## The frame encoder (08_carousel_link_frames.md) -/

/-- A frame that starts at the next byte boundary, behind the byte or escape pair now on the line (R89, R90, R125, R127). It is
not on air before its start. -/
structure Waiting where
  /-- The bytes still to be finished, the one on the line first. -/
  lead : List Byte
  frame : AirFrame
  deriving DecidableEq, Repr

/-- The frame encoder's place on the line; the frame it sends is the engine's on-air frame (chapter introduction). -/
structure Encoder where
  /-- The Abort or truncated Cycle End that starts at the next byte boundary; absent but after a STOP (R89, R90). -/
  waiting : Option Waiting
  /-- Index of the unescaped byte on the line, 0 the marker; the frame's length when every byte has been sent. -/
  place : Nat
  /-- The byte on the line is the first half of an escape pair (R125). -/
  pairFirst : Bool
  /-- The check code accumulator (R126). -/
  crc : Word16
  /-- Bytes 0xAA still to be sent before the next choice or cycle start, the one on the line included: the gap bytes of the last frame
  (R124), or the idle fill byte inside which a cycle start became due (R112, R113, R127). -/
  gap : Nat
  deriving DecidableEq, Repr

/-! ## The link controller (07_keying_and_the_line_handshake.md) -/

/-- The link state (R107). -/
inductive LinkState where
  | halted
  | keying
  | clearWait
  | running
  | dormant
  | fault
  deriving DecidableEq, Repr

/-- The fault cause (R107). -/
inductive FaultCause where
  | none
  | notClear
  | linkLost
  deriving DecidableEq, Repr

/-- The stop point (R107, R115). -/
inductive StopPoint where
  | none
  | immediate
  | frame
  | cycle
  deriving DecidableEq, Repr

/-- The pacing timer (R107): running holds the milliseconds it was started with. -/
inductive Pacing where
  | stopped
  | running (ms : Nat)
  | expired
  deriving DecidableEq, Repr

/-- The link controller's state (R107), with the first-cycle mark of R112, the CYC output (R108) and the CLR input. -/
structure Link where
  state : LinkState
  cause : FaultCause
  stop : StopPoint
  /-- The key-up timer: absent is stopped; running holds the milliseconds it was started with (R110). -/
  keyUp : Option Nat
  /-- The clear-wait timer, likewise (R111). -/
  clearWait : Option Nat
  pacing : Pacing
  /-- The next cycle start is the first after entering RUNNING (R112). -/
  firstPending : Bool
  /-- The CYC output is high (R108). -/
  cyc : Bool
  /-- The CLR input is high, that is, asserted. -/
  clr : Bool
  deriving DecidableEq, Repr

/-! ## The notice unit (09_notices_and_attention.md) -/

/-- The device condition flags, a set of four (R136). -/
structure Conditions where
  linkFault : Bool
  haltReached : Bool
  dormantEntered : Bool
  cycleStart : Bool
  deriving DecidableEq, Repr

/-- The notice unit's state; its enable is a parameter (R136, R140). -/
structure Notice where
  conds : Conditions
  cursor : Key
  deriving DecidableEq, Repr

/-! ## The command port (10_the_command_port.md) -/

/-- The result codes (R158). -/
inductive ResultCode where
  | ok
  | pending
  | none
  | badKey
  | noKey
  | badLength
  | badClass
  | badSlot
  | badParam
  | keyOpen
  | keySpent
  | noSlot
  | tableFull
  | noSpace
  | sequence
  | overrun
  | incomplete
  | state
  | kind
  | short
  | unknown
  deriving DecidableEq, Repr

/-- A result: its code and its response bytes (R147). -/
structure Result where
  code : ResultCode
  bytes : List Byte
  deriving DecidableEq, Repr

/-- An accepted command with its arguments, as the port has taken them from the frame (R149, R158). -/
inductive Command where
  /-- A known command with too few argument or data bytes. -/
  | short
  /-- A code that is not in the command table. -/
  | unknown
  | openSession (key : Key) (kind : Kind) (cls length : Nat)
  | write (slot offset : Nat) (data : List Byte)
  | commit (slot : Nat) (confirm : Bool)
  | cancel (slot : Nat)
  | retire (key : Key)
  | feed (key : Key) (offset : Nat) (data : List Byte)
  | read (key : Key) (offset count : Nat)
  | query (key : Key)
  | notice
  | start
  | configure (code : Byte) (value : Nat)
  deriving DecidableEq, Repr

/-- What holds the port BUSY (R147, R151). -/
inductive PortTask where
  /-- The 2 ms of power-on initialisation. -/
  | initialisation
  /-- An accepted command that has not completed. -/
  | command (c : Command)
  /-- The RETIRE GROUP walk: its group, the last visited key, the retired and the skipped count (R59). -/
  | groupWalk (group : Nat) (last : Option Key) (retired skipped : Nat)
  /-- CLEAR's 2 ms (R157). -/
  | clearing
  deriving DecidableEq, Repr

/-- The command port's state (chapter table; R144, R145). BUSY is "a task is present" and RESULT_READY is "the result slot
is not empty" (log 15). -/
structure Port where
  task : Option PortTask
  result : Option Result
  refused : Bool
  readOut : List Byte
  /-- Absent while CSN is high; while it is low, the port status byte sampled at its fall (R145). -/
  csn : Option Byte
  /-- The bytes the port shifted out on MISO in the last transaction (R144). -/
  miso : List Byte
  deriving DecidableEq, Repr

/-! ## Parameters -/

/-- The parameters CONFIGURE sets (R156). -/
structure Params where
  /-- Bit rate code. -/
  rate : Nat
  /-- Cycle budget, in frame units. -/
  budget : Nat
  /-- Minimum cycle period P, in ms. -/
  period : Nat
  /-- Withdrawal count W. -/
  withdrawals : Nat
  /-- Confirm limit C. -/
  confirmLimit : Nat
  /-- Bare-cycle limit H. -/
  bareLimit : Nat
  /-- Key-up delay, in ms. -/
  keyUpDelay : Nat
  /-- Clear-wait limit, in units of 10 ms. -/
  clearWaitLimit : Nat
  /-- Gap bytes G. -/
  gap : Nat
  spentNotice : Bool
  /-- Cycle-start attention enable (R137). -/
  cycleAttention : Bool
  deriving DecidableEq, Repr

/-! ## The machine -/

/-- The whole device, with the queue of commands and events that wait, first in first out. -/
structure State where
  /-- RSTN is high (R151). -/
  rstn : Bool
  dir : Directory
  pool : Pool
  slots : Slots
  engine : Engine
  encoder : Encoder
  /-- The bytes TXD carried, in order, in the last step that let byte-times of a keyed line pass (R123, R124, R127; log 7). -/
  line : List Byte
  link : Link
  notice : Notice
  port : Port
  params : Params
  /-- The model's own: how many free values the device has read (log 21). -/
  freeCount : Nat
  pending : List Instr
  deriving DecidableEq, Repr

/-- No command or event of this block stops the machine: the spec answers every refusal with a result code or with no
effect (R147, R158), so there is no fault to name. -/
inductive Fault where
  deriving DecidableEq, Repr

/-- The reasons a step is refused. -/
inductive Refusal where
  /-- Raised by exec for a row of the table that has no meaning yet; safe, since no claim about it can be proved. No
  arm of exec raises it. -/
  | notModelled (mnemonic : String)
  deriving DecidableEq, Repr

/-! ## Power-on values -/

/-- No notice flag (R11). -/
def Flags.none : Flags :=
  { confirmed := false, overdue := false, superseded := false, feedDue := false, feedStale := false, withdrawn := false }

/-- No device condition (R136). -/
def Conditions.none : Conditions :=
  { linkFault := false, haltReached := false, dormantEntered := false, cycleStart := false }

/-- The pool's lists after power-on reset and after CLEAR (R31), over the contents `mem`, which neither clears (R21). -/
def Pool.rebuilt (mem : Memory) : Pool :=
  { free := List.range Config.poolBlocks, hold := Option.none, mem := mem }

/-- Every slot FREE (R53). -/
def Slots.allFree : Slots := Vector.replicate 4 Option.none

/-- The playout engine's power-on values (R69). -/
def Engine.powerOn : Engine :=
  { cycle := 0#16, generation := 0#16, phase := .between, budget := 0, firstSent := false, frames := 0#16,
    cursor := Option.none, queue := [], served := [], onAir := Option.none, bare := 0, truncPrev := false }

/-- The encoder while it holds no frame. The spec gives its place and its accumulator no value there (DESIGN CHOICE,
log 14); the accumulator's 0xFFFF is what it starts from (R126). -/
def Encoder.idle : Encoder :=
  { waiting := Option.none, place := 0, pairFirst := false, crc := 0xFFFF#16, gap := 0 }

/-- The link controller's power-on values (R107), over the level of the CLR pin, which reset does not drive. -/
def Link.powerOn (clr : Bool) : Link :=
  { state := .halted, cause := .none, stop := .none, keyUp := Option.none, clearWait := Option.none, pacing := .stopped,
    firstPending := false, cyc := false, clr := clr }

/-- The notice unit's power-on values (R143). -/
def Notice.powerOn : Notice := { conds := Conditions.none, cursor := 0x0000#16 }

/-- The command port at the start of initialisation: BUSY, and everything else empty (table before R144, R151). -/
def Port.powerOn : Port :=
  { task := some .initialisation, result := Option.none, refused := false, readOut := [], csn := Option.none, miso := [] }

/-- The parameters after power-on reset (R156). -/
def Params.powerOn : Params :=
  { rate := 3, budget := 4096, period := 1000, withdrawals := 3, confirmLimit := 10, bareLimit := 4, keyUpDelay := 20,
    clearWaitLimit := 50, gap := 2, spentNotice := true, cycleAttention := false }

/-- Every block at its power-on values, over what reset leaves alone: the contents of the pool (R21), the level of the CLR pin, the
count of free values read and the queue of what is still to come. -/
def State.powerOn (mem : Memory) (clr : Bool) (freeCount : Nat) (pending : List Instr) : State :=
  { rstn := true, dir := [], pool := Pool.rebuilt mem, slots := Slots.allFree, engine := Engine.powerOn,
    encoder := Encoder.idle, line := [], link := Link.powerOn clr, notice := Notice.powerOn, port := Port.powerOn,
    params := Params.powerOn, freeCount := freeCount, pending := pending }

/-- The device right after reset: RSTN has risen, every block has its power-on values and the 2 ms of initialisation
have begun, with BUSY set (R151, log 8). The CLR pin is low (DESIGN CHOICE, log 9) and no byte of the pool has been written
(log 10). -/
def State.reset : State := State.powerOn [] false 0 []

end Sys2Proof.Machine
end

