-- ==== Sys2Proof/Machine/Flags.lean ====
section
/-! DEFINITION. Flag sets: an entry's notice flags and the device conditions, with their encodings, and the ATTN
condition read from them. -/

namespace Sys2Proof.Machine

/-- The flag set is empty. -/
def Flags.isEmpty (f : Flags) : Bool :=
  !(f.confirmed || f.overdue || f.superseded || f.feedDue || f.feedStale || f.withdrawn)

/-- CONFIRMED added; a flag already held is kept (R10). -/
def Flags.addConfirmed (f : Flags) : Flags := { f with confirmed := true }

/-- OVERDUE added (R134). -/
def Flags.addOverdue (f : Flags) : Flags := { f with overdue := true }

/-- SUPERSEDED added when a confirmation was pending (R13, R15, R99, R135). -/
def Flags.supersede (f : Flags) (confirm : Option Confirm) : Flags :=
  if confirm.isSome then { f with superseded := true } else f

/-- FEED_DUE added (R95). -/
def Flags.addFeedDue (f : Flags) : Flags := { f with feedDue := true }

/-- FEED_DUE cleared (R13, R15, R98). -/
def Flags.clearFeedDue (f : Flags) : Flags := { f with feedDue := false }

/-- FEED_STALE added (R100). -/
def Flags.addFeedStale (f : Flags) : Flags := { f with feedStale := true }

/-- WITHDRAWN added (R16). -/
def Flags.addWithdrawn (f : Flags) : Flags := { f with withdrawn := true }

/-- Notice flags as a byte (R158): bit 0 CONFIRMED, 1 OVERDUE, 2 SUPERSEDED, 3 FEED_DUE, 4 FEED_STALE, 5 WITHDRAWN.
Bits 6 and 7 have no name there; they are sent as 0 (DESIGN CHOICE, log 23). -/
def Flags.byte (f : Flags) : Byte :=
  0#2 ++ BitVec.ofBool f.withdrawn ++ BitVec.ofBool f.feedStale ++ BitVec.ofBool f.feedDue ++
    BitVec.ofBool f.superseded ++ BitVec.ofBool f.overdue ++ BitVec.ofBool f.confirmed

/-- The condition set is empty. -/
def Conditions.isEmpty (c : Conditions) : Bool :=
  !(c.linkFault || c.haltReached || c.dormantEntered || c.cycleStart)

/-- Device conditions as a byte (R158): bit 0 LINK_FAULT, 1 HALT_REACHED, 2 DORMANT_ENTERED, 3 CYCLE_START. Bits 4
to 7 have no name there; they are sent as 0 (DESIGN CHOICE, log 23). -/
def Conditions.byte (c : Conditions) : Byte :=
  0#4 ++ BitVec.ofBool c.cycleStart ++ BitVec.ofBool c.dormantEntered ++ BitVec.ofBool c.haltReached ++
    BitVec.ofBool c.linkFault

/-- LINK_FAULT raised (R121). -/
def Conditions.raiseLinkFault (c : Conditions) : Conditions := { c with linkFault := true }

/-- HALT_REACHED raised (R116). -/
def Conditions.raiseHaltReached (c : Conditions) : Conditions := { c with haltReached := true }

/-- DORMANT_ENTERED raised (R119). -/
def Conditions.raiseDormantEntered (c : Conditions) : Conditions := { c with dormantEntered := true }

/-- CYCLE_START raised when the enable is on (R137). -/
def Conditions.raiseCycleStart (enable : Bool) (c : Conditions) : Conditions :=
  if enable then { c with cycleStart := true } else c

/-- The notice unit asserts ATTN (drives it low): some entry holds a notice flag, or a device condition is held (R139). -/
def State.attn (s : State) : Bool :=
  s.dir.any (fun e => !e.flags.isEmpty) || !s.notice.conds.isEmpty

end Sys2Proof.Machine
end

