-- ==== Sys2Proof/Machine/Operands.lean ====
section
/-! DEFINITION. The command port's formats: byte helpers, the arguments of each command frame (R144, R149, R158), and
the encodings of every response (R152, R154, R158). -/

namespace Sys2Proof.Machine

/-! ## Bytes -/

/-- The high byte of a two-byte field. -/
def hiByte (w : Word16) : Byte := w.extractLsb' 8 8

/-- The low byte of a two-byte field. -/
def loByte (w : Word16) : Byte := w.extractLsb' 0 8

/-- A two-byte field, high byte first (R128, R144). -/
def bytes16 (w : Word16) : List Byte := [hiByte w, loByte w]

/-- The field that two bytes spell, high byte first. -/
def word16 (hi lo : Byte) : Word16 := hi ++ lo

/-- A count as one byte. -/
def byteOf (n : Nat) : Byte := BitVec.ofNat 8 n

/-- A count as a two-byte field. -/
def countBytes (n : Nat) : List Byte := bytes16 (BitVec.ofNat 16 n)

/-- A yes/no byte (R158). -/
def yesNo (b : Bool) : Byte := if b then 1#8 else 0#8

/-- The eight bits of a byte in the order TXD carries them: least significant first (R123, R128). -/
def txdBits (b : Byte) : List Bool := (List.range 8).map (fun i => b.getLsbD i)

/-- The eight bits of a byte in the order MOSI and MISO carry them: most significant first (R144). -/
def spiBits (b : Byte) : List Bool := (List.range 8).map (fun i => b.getMsbD i)

/-! ## Command frames -/

/-- OPEN's kind: bit 0 of the options; the other bits are ignored (R34, R158). -/
def kindOfOptions (o : Byte) : Kind := if o.getLsbD 0 then .feed else .stored

/-- STOP's point: 2 FRAME, 3 CYCLE, any other value IMMEDIATE (R149, R158). -/
def stopPointOf (b : Byte) : StopPoint :=
  if b = 2#8 then .frame else if b = 3#8 then .cycle else .immediate

/-- OPEN: key (2), options (1), class (1), length (2). -/
def parseOpen : List Byte → Command
  | k1 :: k0 :: o :: c :: l1 :: l0 :: _ =>
    .openSession (word16 k1 k0) (kindOfOptions o) c.toNat (word16 l1 l0).toNat
  | _ => .short

/-- WRITE: slot (1), offset (2), count (1), data (count). Fewer data bytes than the count is SHORT; bytes beyond the
count are ignored (R144, R149). -/
def parseWrite : List Byte → Command
  | n :: f1 :: f0 :: c :: data =>
    if data.length < c.toNat then .short else .write n.toNat (word16 f1 f0).toNat (data.take c.toNat)
  | _ => .short

/-- COMMIT: slot (1), options (1: bit 0 confirm). -/
def parseCommit : List Byte → Command
  | n :: o :: _ => .commit n.toNat (o.getLsbD 0)
  | _ => .short

/-- CANCEL: slot (1). -/
def parseCancel : List Byte → Command
  | n :: _ => .cancel n.toNat
  | _ => .short

/-- RETIRE: key (2). -/
def parseRetire : List Byte → Command
  | k1 :: k0 :: _ => .retire (word16 k1 k0)
  | _ => .short

/-- RETIRE GROUP: group (1); absent when the frame is short. -/
def parseGroup : List Byte → Option Nat
  | g :: _ => some g.toNat
  | _ => none

/-- FEED: key (2), offset (2), count (1), data (count). -/
def parseFeed : List Byte → Command
  | k1 :: k0 :: f1 :: f0 :: c :: data =>
    if data.length < c.toNat then .short
    else .feed (word16 k1 k0) (word16 f1 f0).toNat (data.take c.toNat)
  | _ => .short

/-- READ: key (2), offset (2), count (1). -/
def parseRead : List Byte → Command
  | k1 :: k0 :: f1 :: f0 :: c :: _ => .read (word16 k1 k0) (word16 f1 f0).toNat c.toNat
  | _ => .short

/-- QUERY: key (2). -/
def parseQuery : List Byte → Command
  | k1 :: k0 :: _ => .query (word16 k1 k0)
  | _ => .short

/-- CONFIGURE: parameter (1), value (2). -/
def parseConfigure : List Byte → Command
  | p :: v1 :: v0 :: _ => .configure p (word16 v1 v0).toNat
  | _ => .short

/-! ## Codes (R158) -/

def LinkState.code : LinkState → BitVec 3
  | .halted => 0#3
  | .keying => 1#3
  | .clearWait => 2#3
  | .running => 3#3
  | .dormant => 4#3
  | .fault => 5#3

/-- The link state as a response byte: the codes of the port status byte (R152, R158). -/
def LinkState.byte (l : LinkState) : Byte := l.code.setWidth 8

def FaultCause.byte : FaultCause → Byte
  | .none => 0#8
  | .notClear => 1#8
  | .linkLost => 2#8

def StopPoint.byte : StopPoint → Byte
  | .none => 0#8
  | .immediate => 1#8
  | .frame => 2#8
  | .cycle => 3#8

def Kind.byte : Kind → Byte
  | .stored => 0#8
  | .feed => 1#8

def ResultCode.byte : ResultCode → Byte
  | .ok => 0x00#8
  | .pending => 0x01#8
  | .none => 0x02#8
  | .badKey => 0x10#8
  | .noKey => 0x11#8
  | .badLength => 0x12#8
  | .badClass => 0x13#8
  | .badSlot => 0x14#8
  | .badParam => 0x15#8
  | .keyOpen => 0x20#8
  | .keySpent => 0x21#8
  | .noSlot => 0x22#8
  | .tableFull => 0x23#8
  | .noSpace => 0x24#8
  | .sequence => 0x30#8
  | .overrun => 0x31#8
  | .incomplete => 0x32#8
  | .state => 0x33#8
  | .kind => 0x34#8
  | .short => 0x40#8
  | .unknown => 0x41#8

/-- Entry state codes: 1 STAGED, 2 LIVE, 3 WITHDRAWING, 4 SPENT (0 is no entry). -/
def Body.stateByte : Body → Byte
  | .staged _ => 1#8
  | .live _ => 2#8
  | .withdrawing _ _ _ => 3#8
  | .spent _ => 4#8

/-- A result as RESULT puts it into the read-out buffer: code, length, response bytes (R148). -/
def Result.readOut (r : Result) : List Byte := r.code.byte :: byteOf r.bytes.length :: r.bytes

/-- A refusal: its code, no response bytes. -/
def Result.refuse (c : ResultCode) : Result := { code := c, bytes := [] }

/-- OK with its response bytes. -/
def Result.ok (bytes : List Byte) : Result := { code := .ok, bytes := bytes }

/-! ## Views of entries and slots -/

/-- The kind of a LIVE record: FEED exactly when the feed fields are present (R8). -/
def Live.kind (v : Live) : Kind := if v.feed.isSome then .feed else .stored

/-- The kind of a session: FEED exactly when it has a spare chain (table before R32). -/
def Session.kind (x : Session) : Kind := if x.spare.isSome then .feed else .stored

/-- A session's slot is FULL: its fill is its length (R32). -/
def Session.full (x : Session) : Bool := x.fill == x.length

/-- Slot state codes: 0 FREE, 1 FILLING, 2 FULL (R158). -/
def slotStateByte : Option Session → Byte
  | none => 0#8
  | some x => if x.full then 2#8 else 1#8

/-- The slot field of an entry (R8). -/
def Body.slot : Body → Option SlotNo
  | .staged n => some n
  | .live v => v.slot
  | .withdrawing _ _ o => o
  | .spent _ => none

/-- The version of an entry, 0 while it has none (R8, R141). -/
def Body.versionByte : Body → Byte
  | .staged _ => 0#8
  | .live v => v.version
  | .withdrawing l _ _ => l.version
  | .spent l => l.version

/-- The entry is LIVE. -/
def Entry.isLive (e : Entry) : Bool :=
  match e.body with
  | .live _ => true
  | _ => false

/-- The number of LIVE entries (R7). -/
def State.liveCount (s : State) : Nat := s.dir.countP Entry.isLive

/-- The open slot set as a byte: bit n set when slot n is FILLING or FULL (R152). There is no slot for bits 4 to 7; they are
sent as 0 (DESIGN CHOICE, log 23). -/
def State.openSlots (s : State) : Byte :=
  0#4 ++ BitVec.ofBool s.slots[3].isSome ++ BitVec.ofBool s.slots[2].isSome ++ BitVec.ofBool s.slots[1].isSome ++
    BitVec.ofBool s.slots[0].isSome

/-- The port is BUSY: a command or the initialisation runs (R145, R147, R151). -/
def State.busy (s : State) : Bool := s.port.task.isSome

/-- The port status byte (R145, R158). -/
def State.statusByte (s : State) : Byte :=
  BitVec.ofBool s.busy ++ BitVec.ofBool s.port.result.isSome ++ BitVec.ofBool s.port.refused ++ BitVec.ofBool s.attn ++
    BitVec.ofBool s.engine.onAir.isSome ++ s.link.state.code

/-! ## Responses -/

/-- The 17 bytes of the STATUS response (R152). -/
def State.statusResponse (s : State) : List Byte :=
  [s.link.state.byte, s.link.cause.byte, s.link.stop.byte] ++ bytes16 s.engine.cycle ++ bytes16 s.engine.generation ++
    countBytes s.dir.length ++ countBytes s.liveCount ++ countBytes s.pool.free.length ++
    countBytes s.engine.queue.length ++ [s.openSlots, s.notice.conds.byte]

/-- The slot field as a response byte: 0 when absent (R154). -/
def slotByte : Option SlotNo → Byte
  | none => 0#8
  | some n => byteOf n.val

/-- QUERY presence (R158): bit 0 kind, class, version, length; 1 feed fields; 2 withdraw remaining; 3 confirm; 4 slot.
Bits 5 to 7 have no name there; they are sent as 0 (DESIGN CHOICE, log 23). -/
def Body.presence (b : Body) : Byte :=
  let content := match b with
    | .staged _ => false
    | _ => true
  let feed := match b with
    | .live v => v.feed.isSome
    | _ => false
  let remaining := match b with
    | .withdrawing _ _ _ => true
    | _ => false
  let confirm := match b with
    | .live v => v.confirm.isSome
    | _ => false
  0#3 ++ BitVec.ofBool b.slot.isSome ++ BitVec.ofBool confirm ++ BitVec.ofBool remaining ++ BitVec.ofBool feed ++
    BitVec.ofBool content

/-- Kind, class, version and length of an entry, 0 while absent: offsets 4 to 8 of the QUERY response. -/
def Body.contentBytes : Body → List Byte
  | .staged _ => [0#8, 0#8, 0#8, 0#8, 0#8]
  | .live v => [v.kind.byte, byteOf v.cls, v.version] ++ countBytes v.length
  | .withdrawing l _ _ => [l.kind.byte, byteOf l.cls, l.version] ++ countBytes l.length
  | .spent l => [l.kind.byte, byteOf l.cls, l.version] ++ countBytes l.length

/-- The withdraw remaining count as a byte, 0 while absent. -/
def Body.remainingByte : Body → Byte
  | .withdrawing _ r _ => byteOf r
  | _ => 0#8

/-- Confirm age and overdue-raised, 0 while absent. -/
def Body.confirmBytes : Body → List Byte
  | .live v =>
    match v.confirm with
    | some c => [byteOf c.age, yesNo c.overdueRaised]
    | none => [0#8, 0#8]
  | _ => [0#8, 0#8]

/-- Feed fill and fresh, 0 while absent. -/
def Body.feedBytes : Body → List Byte
  | .live v =>
    match v.feed with
    | some f => countBytes f.fill ++ [yesNo f.fresh]
    | none => [0#8, 0#8, 0#8]
  | _ => [0#8, 0#8, 0#8]

/-- The front chain of an entry, the empty list but for a LIVE one (R8). -/
def Body.front : Body → Chain
  | .live v => v.front
  | _ => []

/-- The back chain of an entry, the empty list while absent. -/
def Body.back : Body → Chain
  | .live v =>
    match v.feed with
    | some f => f.back
    | none => []
  | _ => []

/-- A chain as two bytes for each block index, in chain order (R154). -/
def chainBytes (c : Chain) : List Byte := c.flatMap countBytes

/-- The QUERY response for an entry (R154, R158). -/
def Entry.queryResponse (e : Entry) (queued : Bool) : List Byte :=
  bytes16 e.key ++ [e.body.stateByte, e.body.presence] ++ e.body.contentBytes ++ [yesNo e.sent, e.body.remainingByte] ++
    e.body.confirmBytes ++ [slotByte e.body.slot, e.flags.byte, yesNo queued] ++ e.body.feedBytes ++
    [byteOf e.body.front.length, byteOf e.body.back.length] ++ chainBytes e.body.front ++ chainBytes e.body.back

end Sys2Proof.Machine
end

