-- ==== Sys2Proof/Machine/Ops.lean ====
section
/-! DEFINITION. The named operations every command shares: pool memory and chains, the free list and the on-air hold,
the directory, the change slots. -/

namespace Sys2Proof.Machine

/-! ## Pool memory (R21) -/

/-- The byte at an address; an unlisted address holds the byte nothing has written (log 10). -/
def Memory.read : Memory → Nat → Byte
  | [], _ => Config.unwrittenByte
  | (x, v) :: m, a => if x = a then v else Memory.read m a

/-- The contents with one byte written, in canonical form: an entry equal to what an unlisted address reads as is
left out. -/
def Memory.write : Memory → Nat → Byte → Memory
  | [], a, b => if b = Config.unwrittenByte then [] else [(a, b)]
  | (x, v) :: m, a, b =>
    if a < x then if b = Config.unwrittenByte then (x, v) :: m else (a, b) :: (x, v) :: m
    else if a = x then if b = Config.unwrittenByte then m else (a, b) :: m
    else (x, v) :: Memory.write m a b

/-- The canonical form: addresses strictly rising, no entry equal to what an unlisted address reads as. -/
abbrev Memory.wf (m : Memory) : Prop :=
  m.Pairwise (fun c d => c.1 < d.1) ∧ ∀ c ∈ m, c.2 ≠ Config.unwrittenByte

/-- The address of payload byte `i` of a chain: block number i div 32 of the chain, position i mod 32 (R21). -/
def chainAddr (chain : Chain) (i : Nat) : Option Nat :=
  (chain[i / Config.blockBytes]?).map (fun b => b * Config.blockBytes + i % Config.blockBytes)

/-- Payload byte `i` of a chain (R21). -/
def payloadByte (m : Memory) (c : Chain) (i : Nat) : Byte :=
  match chainAddr c i with
  | some a => m.read a
  | none => Config.unwrittenByte

/-- `n` payload bytes of a chain from byte `off` on, in chain order (R21). -/
def readPayload (m : Memory) (c : Chain) (off n : Nat) : List Byte :=
  (List.range n).map (fun j => payloadByte m c (off + j))

/-- The contents with the bytes placed into a chain from payload byte `off` on: byte j becomes payload byte off + j
(R41, R97). -/
def writePayload (m : Memory) (c : Chain) : Nat → List Byte → Memory
  | _, [] => m
  | off, b :: bs =>
    match chainAddr c off with
    | some a => writePayload (m.write a b) c (off + 1) bs
    | none => writePayload m c (off + 1) bs

/-- The address lies in one of the payload bytes `off` to `off + n - 1` of a chain. -/
def inPayload (c : Chain) (off n a : Nat) : Prop := ∃ j, j < n ∧ chainAddr c (off + j) = some a

/-! ## The pool's lists (R19 to R31) -/

/-- Blocks one chain of a record of length `len` takes: ceil(len / 32) (R5). -/
def blocksFor (len : Nat) : Nat := (len + (Config.blockBytes - 1)) / Config.blockBytes

/-- Blocks an OPEN takes: one chain for STORED, two for FEED (R22). -/
def blocksTaken (kind : Kind) (len : Nat) : Nat :=
  match kind with
  | .stored => blocksFor len
  | .feed => 2 * blocksFor len

/-- A chain's blocks appended to the tail of the free list, in chain order (R24). -/
def Pool.release (p : Pool) (c : Chain) : Pool := { p with free := p.free ++ c }

/-- The chain in the on-air hold, if any, released to the free list (R29). -/
def Pool.releaseHold (p : Pool) : Pool :=
  match p.hold with
  | some c => { p with free := p.free ++ c, hold := none }
  | none => p

/-- The frame on air is a Record frame for the key that uses this chain, and the chain has a block (R28). -/
def frameUses (onAir : Option AirFrame) (key : Key) (c : Chain) : Bool :=
  match onAir with
  | some (.record f) => f.key == key && f.chain == c && !c.isEmpty
  | _ => false

/-- The front chain leaves its entry: to the on-air hold when it is the chain on air, else to the free list (R26 to R28).
The hold never takes a second chain. -/
def Pool.displaceFront (p : Pool) (onAir : Option AirFrame) (key : Key) (front : Chain) : Pool :=
  if frameUses onAir key front && p.hold.isNone then { p with hold := some front } else p.release front

/-- The chains of a LIVE entry leave it at COMMIT or RETIRE: front, then back (R24, R26, R27). While a Record frame for its key
on air uses a chain already in the hold, or has no block, the spec gives no order of the two; front before back is the model's choice
there (DESIGN CHOICE, log 22). -/
def Pool.displace (p : Pool) (onAir : Option AirFrame) (key : Key) (v : Live) : Pool :=
  match v.feed with
  | some f => (p.displaceFront onAir key v.front).release f.back
  | none => p.displaceFront onAir key v.front

/-! ## The directory (R7) -/

/-- The entry of a key. -/
def Directory.entryOf (d : Directory) (k : Key) : Option Entry := d.find? (fun e => e.key == k)

/-- An entry inserted in its key's place (R7, R11); an entry with its key is replaced. -/
def Directory.insert : Directory → Entry → Directory
  | [], e => [e]
  | x :: d, e =>
    if e.key < x.key then e :: x :: d
    else if e.key = x.key then e :: d
    else x :: Directory.insert d e

/-- The entry of a key changed in place; no entry is added. -/
def Directory.update (d : Directory) (k : Key) (f : Entry → Entry) : Directory :=
  d.map (fun e => if e.key = k then f e else e)

/-- The entry of a key removed. -/
def Directory.remove (d : Directory) (k : Key) : Directory := d.filter (fun e => e.key != k)

/-- The body with its slot field set or made absent (R12, R14). A STAGED entry always names a slot (R11), so making its
field absent leaves it. -/
def Body.withSlot (o : Option SlotNo) : Body → Body
  | .staged n => .staged (o.getD n)
  | .live v => .live { v with slot := o }
  | .withdrawing l r _ => .withdrawing l r o
  | .spent l => .spent l

/-- The entry with its slot field set or made absent. -/
def Entry.withSlot (o : Option SlotNo) (e : Entry) : Entry := { e with body := e.body.withSlot o }

/-- A key outside 0x0001 to 0xFFFE (R1). -/
def badKey (k : Key) : Bool := k == 0x0000#16 || k == 0xFFFF#16

/-- The group of a key: its upper four bits (R2). -/
def groupOf (k : Key) : Nat := (k >>> 12).toNat

/-- A record of this class is due in this cycle: cycle mod 2^class = key mod 2^class (R4). -/
def isDue (cls : Nat) (k : Key) (cycle : Word16) : Bool := cycle.toNat % 2 ^ cls == k.toNat % 2 ^ cls

/-! ## The change slots (R32, R33) -/

/-- The four slot numbers, lowest first. -/
def slotNumbers : List SlotNo := [0, 1, 2, 3]

/-- A slot number from its byte; absent over 3 (R40, R42, R50). -/
def slotNoOf (n : Nat) : Option SlotNo := if h : n < 4 then some ⟨n, h⟩ else none

/-- The session in a slot; absent while the slot is FREE. -/
def Slots.at (x : Slots) (n : SlotNo) : Option Session := x[n]

/-- The slots with one slot's session changed. -/
def Slots.put (x : Slots) (n : SlotNo) (o : Option Session) : Slots := x.set n o

/-- Some non-FREE slot holds the key (R35). -/
def Slots.holds (x : Slots) (k : Key) : Bool :=
  slotNumbers.any (fun n => match x.at n with
    | some y => y.key == k
    | none => false)

/-- The lowest-numbered FREE slot (R38). -/
def Slots.lowestFree (x : Slots) : Option SlotNo := slotNumbers.find? (fun n => (x.at n).isNone)

/-- The chains of a session, staging then spare (R24). -/
def Session.chains (x : Session) : Chain := x.staging ++ x.spare.getD []

end Sys2Proof.Machine
end

