-- ==== Sys2Proof/Machine/Line.lean ====
section
/-! DEFINITION. The carousel link: the bytes of each frame, the check code, escaping, the frame encoder's byte-time,
and the outputs the line and the host see. -/

namespace Sys2Proof.Machine

/-! ## Frame bytes (R125, R126, R128) -/

/-- The marker byte (R125). -/
def marker : Byte := 0xE7#8

/-- The value of gap bytes and idle fill (R124). -/
def fillByte : Byte := 0xAA#8

/-- The type byte of a frame (R125). -/
def AirFrame.typeByte : AirFrame → Byte
  | .cycleStart _ => 0x31#8
  | .record _ => 0x32#8
  | .withdrawal _ => 0x33#8
  | .cycleEnd _ => 0x34#8
  | .abort => 0x3F#8

/-- The flags byte of a Record frame (R128): bits 0 and 1 class, bit 2 FEED, bit 3 STALE. -/
def RecordFrame.flagsByte (f : RecordFrame) : Byte :=
  0#4 ++ BitVec.ofBool f.stale ++ BitVec.ofBool (f.kind == .feed) ++ BitVec.ofNat 2 f.cls

/-- The bytes a frame's check code covers, in frame order: from the byte after the type to the byte before the check
code (R126), laid out as R128 gives; a Record frame's payload is read from its fixed chain (R130). -/
def AirFrame.covered (m : Memory) : AirFrame → List Byte
  | .cycleStart f =>
    bytes16 f.cycle ++ bytes16 f.generation ++ countBytes f.liveCount ++
      [byteOf f.carryCount, 0#6 ++ BitVec.ofBool f.truncatedPrevious ++ BitVec.ofBool f.first]
  | .record f =>
    bytes16 f.key ++ [f.version, f.flagsByte] ++ countBytes f.length ++ readPayload m f.chain 0 f.length
  | .withdrawal f => bytes16 f.key ++ [f.version, byteOf f.after]
  | .cycleEnd f => bytes16 f.cycle ++ bytes16 f.frames ++ [0#7 ++ BitVec.ofBool f.truncated]
  | .abort => []

/-- The number of covered bytes of a frame (R128). -/
def AirFrame.coveredLength : AirFrame → Nat
  | .cycleStart _ => 8
  | .record f => 6 + f.length
  | .withdrawal _ => 4
  | .cycleEnd _ => 5
  | .abort => 0

/-- The length of a frame in unescaped bytes: marker, type, covered bytes and, but for an Abort, the check code (R128). -/
def AirFrame.byteLength : AirFrame → Nat
  | .abort => 2
  | f => 4 + f.coveredLength

/-- One bit taken into the check register (R126). -/
def crcBit (r : Word16) (bit : Bool) : Word16 :=
  if bit != r.msb then (r <<< 1) ^^^ 0x8BB7#16 else r <<< 1

/-- One byte taken into the check register, most significant bit first (R126). -/
def crcByte (r : Word16) (b : Byte) : Word16 := (List.range 8).foldl (fun r i => crcBit r (b.getMsbD i)) r

/-- The check code of the covered bytes: the register starts at 0xFFFF, no final inversion (R126). -/
def checkCode (bytes : List Byte) : Word16 := bytes.foldl crcByte 0xFFFF#16

/-- The check code's two bytes, high byte first; an Abort has none (R126). -/
def AirFrame.checkBytes (m : Memory) : AirFrame → List Byte
  | .abort => []
  | f => bytes16 (checkCode (f.covered m))

/-- A byte after the type byte as it is sent: 0xE7 is sent twice (R125). -/
def escape (b : Byte) : List Byte := if b = marker then [marker, marker] else [b]

/-- Every byte of a frame as it goes on the line (R125 to R128). -/
def AirFrame.lineBytes (m : Memory) (f : AirFrame) : List Byte :=
  [marker, f.typeByte] ++ (f.covered m ++ f.checkBytes m).flatMap escape

/-! ## The frame encoder (R125 to R127) -/

/-- The unescaped byte at a place of a frame, the check code taken from the accumulator. -/
def AirFrame.byteAt (m : Memory) (f : AirFrame) (crc : Word16) (place : Nat) : Byte :=
  if place = 0 then marker
  else if place = 1 then f.typeByte
  else if place < 2 + f.coveredLength then ((f.covered m)[place - 2]?).getD 0#8
  else if place = 2 + f.coveredLength then hiByte crc
  else loByte crc

/-- Every byte of a frame before escaping: marker, type, covered bytes, check code (R125, R126, R128). -/
def AirFrame.rawBytes (m : Memory) (f : AirFrame) : List Byte := [marker, f.typeByte] ++ (f.covered m ++ f.checkBytes m)

/-- The byte of the frame that is on the line; absent when every byte has been sent. -/
def Encoder.current (m : Memory) (f : AirFrame) (e : Encoder) : Option Byte :=
  if e.place < f.byteLength then some (f.byteAt m e.crc e.place) else none

/-- The bytes of the frame from the one on the line to its last, escape bytes included (R125, R127). -/
def Encoder.toSend (m : Memory) (f : AirFrame) (e : Encoder) : List Byte :=
  match (f.rawBytes m).drop e.place with
  | [] => []
  | b :: rest => (if e.pairFirst then [marker] else []) ++ b :: rest.flatMap escape

/-- The encoder after one byte-time of a frame: the escape byte of a pair, or the next byte of the frame, taken into the accumulator
when it is covered; after the last byte, the frame's end (R125 to R127). -/
def Encoder.advance (m : Memory) (f : AirFrame) (e : Encoder) : Encoder :=
  if e.pairFirst then { e with pairFirst := false }
  else if e.place + 1 < f.byteLength then
    let b := f.byteAt m e.crc (e.place + 1)
    { e with
      place := e.place + 1
      pairFirst := decide (2 ≤ e.place + 1) && b == marker
      crc := if 2 ≤ e.place + 1 ∧ e.place + 1 < 2 + f.coveredLength then crcByte e.crc b else e.crc }
  else { e with place := f.byteLength }

/-- A frame starts: it is on air, the first bit of its marker begins on the line (R127). -/
def State.beginFrame (s : State) (f : AirFrame) : State :=
  { s with engine := { s.engine with onAir := some f }, encoder := Encoder.idle }

/-- A frame is to start when the bytes still to be finished have been sent: at the next byte boundary, at once when there are none
(R89, R90, R127). No frame is on air until then. -/
def State.beginFrameAfter (s : State) (lead : List Byte) (f : AirFrame) : State :=
  if lead = [] then s.beginFrame f
  else { s with
    engine := { s.engine with onAir := none }
    encoder := { Encoder.idle with waiting := some { lead := lead, frame := f } } }

/-- The frame on air has ended; `gap` gap bytes follow it (R124, R127). -/
def State.endFrame (s : State) (gap : Nat) : State :=
  { s with engine := { s.engine with onAir := none }, encoder := { Encoder.idle with gap := gap } }

/-- The frame that ends next: the one on air, or the one that starts at the next byte boundary. -/
def State.nextEnding (s : State) : Option AirFrame :=
  match s.engine.onAir with
  | some f => some f
  | none => s.encoder.waiting.map Waiting.frame

/-- The bytes from the one on the line to the last of the frame that ends next (R127). -/
def State.bytesToFrameEnd (s : State) : List Byte :=
  match s.engine.onAir with
  | some f => s.encoder.toSend s.pool.mem f
  | none =>
    match s.encoder.waiting with
    | some w => w.lead ++ w.frame.lineBytes s.pool.mem
    | none => []

/-- A byte-time has passed: CYC, high only for the byte-time of a Cycle Start frame's marker, is low after it (R108, R129). -/
def State.cycFalls (s : State) : State := { s with link := { s.link with cyc := false } }

/-- The byte-times up to the end of that frame pass: all its bytes go on the line, and CYC falls behind the first (R108, R127, R129;
log 7). -/
def State.sendToFrameEnd (s : State) : State := { s.cycFalls with line := s.bytesToFrameEnd }

/-- The byte-times of the gap bytes, or of the fill byte, still to be sent pass (R74, R113, R124, log 7). -/
def State.sendGap (s : State) : State :=
  { s with line := List.replicate s.encoder.gap fillByte, encoder := { s.encoder with gap := 0 } }

/-- Where an instant falls in the bytes on the line (R112, R113). -/
inductive BytePoint where
  /-- Between two bytes. -/
  | boundary
  /-- Inside the byte on the line. -/
  | inside
  deriving DecidableEq, Repr

/-- Where CLR's assertion falls: a free value, since no rule ties the pin to the bytes (log 21). -/
def State.clrPoint (s : State) : BytePoint := if Config.clrOnByteBoundary s.freeCount then .boundary else .inside

/-- Inside an idle fill byte: that byte is finished before a frame can start (R112, R113, R127). -/
def State.finishFill (s : State) : State := { s with encoder := { s.encoder with gap := max s.encoder.gap 1 } }

/-- A cycle start becomes due during idle fill: at once on a byte boundary, else behind the byte on the line (R112, R113). -/
def State.finishFillAt (s : State) (p : BytePoint) : State :=
  match p with
  | .boundary => s
  | .inside => s.finishFill

/-- The bit rate of a bit rate code, in bit/s (R123). -/
def bitRate (code : Nat) : Nat := 1200 * 2 ^ code

/-- Where the instant `ms` milliseconds after a byte boundary falls. Expiries are exact, and 8 bits make a byte with nothing between two
bytes (R123); KEY rises and cycles start at a byte's first bit (R123, R127). -/
def State.expiryPoint (s : State) (ms : Nat) : BytePoint :=
  if ms * bitRate s.params.rate % 8000 = 0 then .boundary else .inside

/-! ## What is due on the line (R71, R74, R112, R113, R124) -/

/-- A cycle is open (R70). -/
def State.cycleOpen (s : State) : Bool := s.engine.phase != .between

/-- A frame choice can be made now (R74): a cycle is open in RUNNING and no frame is on air. -/
def State.choiceAllowed (s : State) : Bool :=
  s.cycleOpen && s.link.state == .running && s.engine.onAir.isNone

/-- A cycle start can occur now (R71, R112, R113): BETWEEN, RUNNING, no frame on air, no stop point pending, and either the first
of the running period or the pacing timer expired. -/
def State.cycleAllowed (s : State) : Bool :=
  s.engine.phase == .between && s.link.state == .running && s.engine.onAir.isNone && s.link.stop == .none &&
    (s.link.firstPending || s.link.pacing == .expired)

/-- The line stands at the instant of a frame choice or a cycle start: it is due and no gap or fill byte is left to send before it. No
byte passes until its row (R113, R124; log 7). -/
def State.rowDue (s : State) : Bool := s.encoder.gap == 0 && (s.choiceAllowed || s.cycleAllowed)

/-! ## Outputs (R108, R123, R124) -/

/-- The link is keyed: KEYING, CLEAR_WAIT or RUNNING. -/
def LinkState.keyed : LinkState → Bool
  | .keying => true
  | .clearWait => true
  | .running => true
  | .halted => false
  | .dormant => false
  | .fault => false

/-- The KEY output is on (R108). -/
def State.keyOutput (s : State) : Bool := s.link.state.keyed

/-- TXC runs (R108, R123). -/
def State.txcRuns (s : State) : Bool := s.link.state.keyed

/-- The byte now on TXD (R108, R124). Absent while the line is still, TXD held high, and where the line stands between two bytes at the
instant of a frame's end, a frame choice or a cycle start, whose row decides what follows (log 7). -/
def State.txdByte (s : State) : Option Byte :=
  if s.link.state.keyed then
    match s.engine.onAir with
    | some f => s.encoder.current s.pool.mem f
    | none =>
      match s.encoder.waiting with
      | some w => w.lead.head?
      | none => if s.rowDue then none else some fillByte
  else none

/-- The byte, or the rest of the escape pair, that the encoder finishes when it is told to stop in mid-byte: the byte on
the line in the sense of R89, R90 and R125. At an instant between two bytes there is none. -/
def State.bytesToFinish (s : State) : List Byte :=
  match s.engine.onAir with
  | some f => if s.encoder.pairFirst then [marker, marker] else (s.encoder.current s.pool.mem f).toList
  | none =>
    match s.encoder.waiting with
    | some w => w.lead
    | none => s.txdByte.toList

/-- One byte-time of a frame that starts at the next byte boundary: a byte before it is finished, and with the last one the frame
starts (R127). -/
def State.finishLead (s : State) (w : Waiting) : State :=
  { s with line := w.lead.take 1 }.beginFrameAfter w.lead.tail w.frame

/-- The byte on the line has been sent, and the encoder puts the next byte of the frame on air, the next gap byte or the marker of a
frame that was to start behind it on the line. At the instant of a frame's end, a frame choice or a cycle start the line waits for its row
(log 7). -/
def State.passByte (s : State) : State :=
  match s.engine.onAir with
  | some f =>
    { s with
      line := (s.encoder.current s.pool.mem f).toList
      encoder := s.encoder.advance s.pool.mem f }
  | none =>
    match s.encoder.waiting with
    | some w => s.finishLead w
    | none => { s with line := s.txdByte.toList, encoder := { s.encoder with gap := s.encoder.gap - 1 } }

/-- One byte-time of the carousel link: what a step on an empty queue does (DESIGN CHOICE, log 6). While the link is keyed a byte
passes, and with a Cycle Start frame's marker CYC falls (R108, R129); a still line stays still. -/
def byteTime (s : State) : State := if s.link.state.keyed then s.passByte.cycFalls else s

end Sys2Proof.Machine
end

