-- ==== Sys2Proof/Machine/Cycle.lean ====
section
/-! DEFINITION. The operations the playout engine and the link controller share: candidates, the early end, entry into
each link state, and reaching a stop point. -/

namespace Sys2Proof.Machine

/-! ## Candidates (R75, R76) -/

/-- LIVE or WITHDRAWING: a state in which frames are sent for the entry. -/
def Body.onCarousel : Body → Bool
  | .live _ => true
  | .withdrawing _ _ _ => true
  | .staged _ => false
  | .spent _ => false

/-- A queued key with this entry is a candidate in CARRY: LIVE or WITHDRAWING and not sent this cycle, due or not (R75). -/
def Entry.servable (e : Entry) : Bool := e.body.onCarousel && !e.sent

/-- The entry is due: a LIVE one by its class, a WITHDRAWING one in every cycle (R4, R62). -/
def Entry.due (cycle : Word16) (e : Entry) : Bool :=
  match e.body with
  | .live v => isDue v.cls e.key cycle
  | .withdrawing _ _ _ => true
  | .staged _ => false
  | .spent _ => false

/-- The key stands above the walk cursor; "start" stands below every key (R69). -/
def aboveCursor (cursor : Option Key) (k : Key) : Bool :=
  match cursor with
  | none => true
  | some c => decide (c < k)

/-- The cursor the candidates are judged from: "start" outside WALK (R84, R88). -/
def Engine.walkFrom (en : Engine) : Option Key := if en.phase = .walk then en.cursor else none

/-- The entry is a WALK candidate (R76). -/
def Engine.walkCandidate (en : Engine) (e : Entry) : Bool :=
  aboveCursor en.walkFrom e.key && e.due en.cycle && !e.sent && !en.served.contains e.key

/-- The WALK candidates, in ascending key order (R76). -/
def State.walkCandidates (s : State) : List Entry := s.dir.filter s.engine.walkCandidate

/-- The queue with the keys of the WALK candidates appended that are not already in it (R84, R85, R88). -/
def State.queueWithOwed (s : State) (queue : List Key) : List Key :=
  queue ++ (s.walkCandidates.map Entry.key).filter (fun k => !queue.contains k)

/-! ## The early end (R88) -/

/-- The key of the Record or Withdrawal frame on air; absent for every other frame. -/
def AirFrame.key : AirFrame → Option Key
  | .record f => some f.key
  | .withdrawal f => some f.key
  | .cycleStart _ => none
  | .cycleEnd _ => none
  | .abort => none

/-- The queue with the key of an abandoned frame put at its head; no key stands in it twice (R85, R88). -/
def queueWithAbandoned (queue : List Key) (abandoned : Option Key) : List Key :=
  match abandoned with
  | some k => k :: queue.filter (fun x => x != k)
  | none => queue

/-- The open cycle ends early: the frame still on air, if any, is abandoned or cut (R88, R29). -/
def State.earlyEnd (s : State) : State :=
  let queue := queueWithAbandoned s.engine.queue (s.engine.onAir.bind AirFrame.key)
  { s with
    pool := s.pool.releaseHold
    engine := { s.engine with queue := s.queueWithOwed queue, truncPrev := true, phase := .between, onAir := none } }

/-- The early end at a FRAME stop point: the truncated Cycle End starts, after the bytes still to be finished (R89). -/
def State.truncatedEnd (s : State) (lead : List Byte) : State :=
  s.earlyEnd.beginFrameAfter lead
    (.cycleEnd { cycle := s.engine.cycle, frames := s.engine.frames, truncated := true })

/-! ## Link states (R107 to R121) -/

/-- The link enters HALTED from RUNNING (R116). -/
def State.enterHalted (s : State) : State :=
  { s with
    engine := { s.engine with onAir := none }
    encoder := Encoder.idle
    link := { s.link with state := .halted, stop := .none, pacing := .stopped, firstPending := false, cyc := false }
    notice := { s.notice with conds := s.notice.conds.raiseHaltReached } }

/-- The link enters DORMANT (R119). -/
def State.enterDormant (s : State) : State :=
  { s with
    engine := { s.engine with onAir := none }
    encoder := Encoder.idle
    link := { s.link with state := .dormant, stop := .none, pacing := .stopped, firstPending := false, cyc := false }
    notice := { s.notice with conds := s.notice.conds.raiseDormantEntered } }

/-- The link enters FAULT (R121). -/
def State.enterFault (s : State) (cause : FaultCause) : State :=
  { s with
    engine := { s.engine with onAir := none }
    encoder := Encoder.idle
    link := { s.link with
      state := .fault, cause := cause, stop := .none, keyUp := none, clearWait := none, pacing := .stopped,
      firstPending := false, cyc := false }
    notice := { s.notice with conds := s.notice.conds.raiseLinkFault } }

/-- The link enters RUNNING at this point of the bytes on the line: the next cycle start is marked as the first; it comes at the first byte
boundary at or after the entry (R112). -/
def State.enterRunning (s : State) (p : BytePoint) : State :=
  { s with link := { s.link with
      state := .running, stop := .none, keyUp := none, clearWait := none, pacing := .stopped, firstPending := true } }.finishFillAt p

/-- The key-up timer expires `ms` milliseconds after the entry into KEYING, and CLR is sampled (R110, R112). The clear-wait timer starts
with its limit times 10 ms (R111). -/
def State.expireKeyUp (s : State) (ms : Nat) : State :=
  if s.link.clr then s.enterRunning (s.expiryPoint ms)
  else { s with link := { s.link with
      state := .clearWait, keyUp := none, clearWait := some (s.params.clearWaitLimit * 10) } }

/-- The link enters KEYING from START or a waking COMMIT: KEY on, cause NONE, key-up timer started (R109, R120). A delay of
0 makes the expiry fall at the same instant (R110): with CLR asserted the link is RUNNING on a byte boundary, and the first Cycle Start
comes with no idle fill before it (R112), though R123 begins a keyed period with idle fill (DESIGN CHOICE, log 25). -/
def State.enterKeying (s : State) : State :=
  let s1 := { s with
    encoder := Encoder.idle
    link := { s.link with state := .keying, cause := .none, keyUp := some s.params.keyUpDelay } }
  if s.params.keyUpDelay = 0 then s1.expireKeyUp 0 else s1

/-! ## Stop points (R92, R114 to R116) -/

/-- The earlier of the pending stop point and a new one: IMMEDIATE before FRAME before CYCLE (R115). -/
def StopPoint.earlier : StopPoint → StopPoint → StopPoint
  | .none, p => p
  | .immediate, _ => .immediate
  | .frame, .immediate => .immediate
  | .frame, _ => .frame
  | .cycle, .none => .cycle
  | .cycle, p => p

/-- IMMEDIATE is reached at the STOP's completion (R90, R92): in an open cycle the early end and an Abort; a Cycle End in BETWEEN, on
air or about to start (log 21), gives way to an Abort; an Abort completes; with nothing to send the link is HALTED at once. The
Abort starts behind the byte on the line. -/
def State.reachImmediate (s : State) : State :=
  if s.cycleOpen then s.earlyEnd.beginFrameAfter s.bytesToFinish .abort
  else match s.nextEnding with
    | some (.cycleEnd _) =>
      { s with engine := { s.engine with truncPrev := true } }.beginFrameAfter s.bytesToFinish .abort
    | some _ => s
    | none => s.enterHalted

/-- FRAME at the STOP's completion (R89, R92): reached at once when no frame is on air, the truncated Cycle End behind the gap byte on
the line, if any; a frame about to start is sent. -/
def State.reachFrame (s : State) : State :=
  if s.nextEnding.isSome then s
  else if s.cycleOpen then s.truncatedEnd s.bytesToFinish
  else s.enterHalted

/-- CYCLE at the STOP's completion (R92, R115): reached at once only in BETWEEN with no frame on air or about to start. -/
def State.reachCycle (s : State) : State :=
  if s.nextEnding.isNone && !s.cycleOpen then s.enterHalted else s

/-- A STOP in RUNNING: the earlier point stands, and it acts as far as it is reached now (R115). While IMMEDIATE's Abort is
on air a further STOP changes nothing. -/
def State.stopRunning (s : State) (p : StopPoint) : State :=
  let q := s.link.stop.earlier p
  let s1 := { s with link := { s.link with stop := q } }
  if s.link.stop = .immediate then s
  else match q with
    | .none => s
    | .immediate => s1.reachImmediate
    | .frame => s1.reachFrame
    | .cycle => s1.reachCycle

/-- What follows a completed Cycle Start, Record or Withdrawal frame, when its own effects have acted: a pending FRAME point
is reached there and the truncated Cycle End starts at once; else G gap bytes follow (R89, R124). -/
def State.afterFrame (s : State) : State :=
  if s.link.stop = .frame then (s.endFrame 0).truncatedEnd [] else s.endFrame s.params.gap

end Sys2Proof.Machine
end

