-- ==== Sys2Proof/Machine/Port.lean ====
section
/-! DEFINITION. The command port (10_the_command_port.md): transactions, acceptance and discard, the result slot, and the
rows EMPTY_TRANSACTION, STATUS, RESULT. -/

namespace Sys2Proof.Machine

/-! ## Transactions (R144 to R147) -/

/-- The port status byte the transaction shows: sampled at the CSN fall if that was given, else at this instant, fall and
rise being one (R145, log 2). -/
def State.sampledStatus (s : State) : Byte := s.port.csn.getD s.statusByte

/-- The bytes shifted out on MISO in a transaction with `extra` bytes after the command code: the port status byte, then the
read-out buffer one byte per byte received, then 0x00 (R144). The buffer is taken as it stands at the rise, so a transaction that is open
when initialisation ends, which empties the buffer (R151), has shown 0x00 throughout (DESIGN CHOICE, log 26). -/
def State.shiftOut (s : State) (extra : Nat) : List Byte :=
  s.sampledStatus :: (List.range extra).map (fun i => (s.port.readOut[i]?).getD 0#8)

/-- The CSN rise that ends a transaction: the read-out buffer is emptied, whether or not it was clocked out (R146). -/
def State.endTransaction (s : State) (extra : Nat) : State :=
  { s with port := { s.port with readOut := [], csn := none, miso := s.shiftOut extra } }

/-- A transaction whose command is always taken: STATUS, RESULT, STOP (R147). While RSTN is low the port ignores CSN
(R144, R151). -/
def State.taken (s : State) (extra : Nat) (act : State → State) : State :=
  if s.rstn then act (s.endTransaction extra) else s

/-- A transaction with any other command: accepted when the port is not BUSY, which clears REFUSED; else discarded, which
sets it (R147). -/
def State.gated (s : State) (extra : Nat) (act : State → State) : State :=
  if s.rstn then
    if s.busy then
      let s1 := s.endTransaction extra
      { s1 with port := { s1.port with refused := true } }
    else
      let s1 := s.endTransaction extra
      act { s1 with port := { s1.port with refused := false } }
  else s

/-- BUSY becomes yes for a command or walk (R147). -/
def State.begin (t : PortTask) (s : State) : State := { s with port := { s.port with task := some t } }

/-- A completion: the result replaces the result slot's, RESULT_READY becomes yes and BUSY no (R147). -/
def State.finish (s : State) (r : Result) : State :=
  { s with port := { s.port with result := some r, task := none } }

/-- A transaction with a command that completes at COMMAND_COMPLETION (R147). -/
def State.accept (s : State) (args : List Byte) (c : Command) : State :=
  s.gated args.length (State.begin (.command c))

/-! ## The rows -/

/-- EMPTY_TRANSACTION (R145, R146): the fall samples the port status byte; the rise empties the read-out buffer and carries
no command. The host has seen the port status byte (R145, log 19). -/
def execEmptyTransaction (edge : CsnEdge) (s : State) : Host.Outcome State Fault Refusal :=
  if s.rstn then
    match edge with
    | .fall => .next { s with port := { s.port with csn := some s.sampledStatus } }
    | .rise => .next (s.endTransaction 0)
  else .next s

/-- STATUS's act (R138, R152): the 17 bytes into the read-out buffer, the device conditions emptied. -/
def State.takeStatus (s : State) : State :=
  { s with
    port := { s.port with readOut := s.statusResponse }
    notice := { s.notice with conds := Conditions.none } }

/-- STATUS (R152). -/
def execStatus (args : List Byte) (s : State) : Host.Outcome State Fault Refusal :=
  .next (s.taken args.length State.takeStatus)

/-- RESULT's act (R148). -/
def State.takeResult (s : State) : State :=
  if s.busy then { s with port := { s.port with readOut := (Result.refuse .pending).readOut } }
  else match s.port.result with
    | some r => { s with port := { s.port with readOut := r.readOut, result := none } }
    | none => { s with port := { s.port with readOut := (Result.refuse .none).readOut } }

/-- RESULT (R148). -/
def execResult (args : List Byte) (s : State) : Host.Outcome State Fault Refusal :=
  .next (s.taken args.length State.takeResult)

end Sys2Proof.Machine
end

