-- ==== Sys2Proof/Machine/Administration.lean ====
section
/-! DEFINITION. CONFIGURE and CLEAR (10_the_command_port.md), and CLEAR_COMPLETION. -/

namespace Sys2Proof.Machine

/-- The link states in which CONFIGURE and CLEAR are accepted (R156, R157). -/
def LinkState.atRest : LinkState → Bool
  | .halted => true
  | .fault => true
  | .keying => false
  | .clearWait => false
  | .running => false
  | .dormant => false

/-- The parameters with one set; absent when the code is not in the table or the value is out of its range (R156). -/
def Params.set (p : Params) (code : Byte) (v : Nat) : Option Params :=
  match code.toNat with
  | 0x01 => if v ≤ 9 then some { p with rate := v } else none
  | 0x02 => if 64 ≤ v ∧ v ≤ 65535 then some { p with budget := v } else none
  | 0x03 => if v ≤ 65535 then some { p with period := v } else none
  | 0x04 => if 1 ≤ v ∧ v ≤ 15 then some { p with withdrawals := v } else none
  | 0x05 => if 1 ≤ v ∧ v ≤ 15 then some { p with confirmLimit := v } else none
  | 0x06 => if v ≤ 15 then some { p with bareLimit := v } else none
  | 0x07 => if v ≤ 255 then some { p with keyUpDelay := v } else none
  | 0x08 => if 1 ≤ v ∧ v ≤ 255 then some { p with clearWaitLimit := v } else none
  | 0x09 => if v ≤ 15 then some { p with gap := v } else none
  | 0x0A => if v ≤ 1 then some { p with spentNotice := v == 1 } else none
  | 0x0B => if v ≤ 1 then some { p with cycleAttention := v == 1 } else none
  | _ => none

/-- A WITHDRAWING entry's remaining count clipped to W (R67). -/
def Entry.clip (w : Nat) (e : Entry) : Entry :=
  match e.body with
  | .withdrawing l r o => { e with body := .withdrawing l (min r w) o }
  | _ => e

/-- CONFIGURE's completion (R67, R156). Only a CONFIGURE of W can lower a count, since every count is at most W. -/
def runConfigure (code : Byte) (value : Nat) (s : State) : State × Result :=
  if s.link.state.atRest then
    match s.params.set code value with
    | some p =>
      ({ s with params := p, dir := if code = 0x04#8 then s.dir.map (Entry.clip p.withdrawals) else s.dir },
        Result.ok [])
    | none => (s, Result.refuse .badParam)
  else (s, Result.refuse .state)

/-- CONFIGURE (R156, R147). -/
def execConfigure (args : List Byte) (s : State) : Host.Outcome State Fault Refusal :=
  .next (s.accept args (parseConfigure args))

/-- An accepted CLEAR: STATE at once outside HALTED and FAULT, else its 2 ms begin (R157). -/
def State.startClear (s : State) : State :=
  if s.link.state.atRest then s.begin .clearing else s.finish (Result.refuse .state)

/-- CLEAR (R157, R147). -/
def execClear (args : List Byte) (s : State) : Host.Outcome State Fault Refusal :=
  .next (s.gated args.length State.startClear)

/-- The record store reset (R18, R31, R53, R69, R143, R157): the cycle number, the parameters, the link and the device conditions
are kept; block contents are not cleared (R21). -/
def State.clearStore (s : State) : State :=
  { s with
    dir := []
    slots := Slots.allFree
    pool := Pool.rebuilt s.pool.mem
    engine := { Engine.powerOn with cycle := s.engine.cycle }
    encoder := Encoder.idle
    notice := { s.notice with cursor := 0x0000#16 } }

/-- CLEAR_COMPLETION (R157); without a CLEAR in progress there is no such event (log 3). -/
def execClearCompletion (s : State) : Host.Outcome State Fault Refusal :=
  if s.port.task == some .clearing then .next (s.clearStore.finish (Result.ok [])) else .next s

end Sys2Proof.Machine
end

