-- ==== Sys2Proof/Machine/Feeding.lean ====
section
/-! DEFINITION. FEED (06_feed_records.md). -/

namespace Sys2Proof.Machine

/-- The feed fields after a piece at `offset` that leaves `fill` bytes of a record of length `length` (R97, R98): a complete fill
is fresh and starts again from 0; a piece at offset 0 that does not complete one ends the freshness of what it overwrites. -/
def Feed.afterPiece (f : Feed) (length offset fill : Nat) : Feed :=
  if fill = length then { f with fill := 0, fresh := true }
  else { f with fill := fill, fresh := if offset = 0 then false else f.fresh }

/-- The entry after a piece (R97, R98): a completed fill clears FEED_DUE. -/
def Entry.fed (offset fill : Nat) (e : Entry) : Entry :=
  match e.body with
  | .live v =>
    { e with
      flags := if fill = v.length then e.flags.clearFeedDue else e.flags
      body := .live { v with feed := v.feed.map (fun f => f.afterPiece v.length offset fill) } }
  | _ => e

/-- A FEED piece that passes its checks (R97, R98). -/
def State.feedPiece (s : State) (key : Key) (f : Feed) (offset : Nat) (data : List Byte) : State :=
  { s with
    dir := s.dir.update key (Entry.fed offset (offset + data.length))
    pool := { s.pool with mem := writePayload s.pool.mem f.back offset data } }

/-- FEED's response: the feed fill after the piece and whether it completed a fill (R97). -/
def feedResponse (length fill : Nat) : List Byte :=
  if fill = length then countBytes 0 ++ [yesNo true] else countBytes fill ++ [yesNo false]

/-- FEED's completion (R96 to R98). -/
def runFeed (key : Key) (offset : Nat) (data : List Byte) (s : State) : State × Result :=
  if badKey key then (s, Result.refuse .badKey)
  else if data.length = 0 ∨ data.length > 64 then (s, Result.refuse .badLength)
  else match s.dir.entryOf key with
    | none => (s, Result.refuse .noKey)
    | some e =>
      match e.body with
      | .live v =>
        match v.feed with
        | none => (s, Result.refuse .kind)
        | some f =>
          if offset ≠ f.fill then (s, Result.refuse .sequence)
          else if offset + data.length > v.length then (s, Result.refuse .overrun)
          else (s.feedPiece key f offset data, Result.ok (feedResponse v.length (offset + data.length)))
      | _ => (s, Result.refuse .state)

/-- FEED (R97, R147). -/
def execFeed (args : List Byte) (s : State) : Host.Outcome State Fault Refusal :=
  .next (s.accept args (parseFeed args))

end Sys2Proof.Machine
end

