-- ==== Sys2Proof/Machine/Keying.lean ====
section
/-! DEFINITION. The link controller's rows (07_keying_and_the_line_handshake.md): START, STOP, the timers' expiries, the
CLR input, and the CYC output's fall. -/

namespace Sys2Proof.Machine

/-- START's completion (R109). -/
def runStart (s : State) : State × Result :=
  match s.link.state with
  | .halted => (s.enterKeying, Result.ok [])
  | .fault => (s.enterKeying, Result.ok [])
  | .keying => (s, Result.refuse .state)
  | .clearWait => (s, Result.refuse .state)
  | .running => (s, Result.refuse .state)
  | .dormant => (s, Result.refuse .state)

/-- START (R109, R147). -/
def execStart (args : List Byte) (s : State) : Host.Outcome State Fault Refusal :=
  .next (s.accept args .start)

/-- STOP from a state other than RUNNING: HALTED, timers stopped, the cause NONE, no stop point and no condition (R114). -/
def State.stopToHalted (s : State) : State :=
  { s with
    encoder := Encoder.idle
    link := { s.link with state := .halted, cause := .none, keyUp := none, clearWait := none } }

/-- STOP's act at its CSN rise (R114, R115). -/
def State.takeStop (p : StopPoint) (s : State) : State :=
  match s.link.state with
  | .halted => s
  | .keying => s.stopToHalted
  | .clearWait => s.stopToHalted
  | .dormant => s.stopToHalted
  | .fault => s.stopToHalted
  | .running => s.stopRunning p

/-- STOP (R114, R149): a transaction without its point byte is ignored. -/
def execStop (args : List Byte) (s : State) : Host.Outcome State Fault Refusal :=
  match args with
  | [] => .next (s.taken 0 id)
  | p :: _ => .next (s.taken args.length (State.takeStop (stopPointOf p)))

/-- KEY_UP_TIMER_EXPIRY (R110); a stopped timer has no expiry (R107). -/
def execKeyUpTimerExpiry (s : State) : Host.Outcome State Fault Refusal :=
  match s.link.keyUp with
  | some ms => .next (s.expireKeyUp ms)
  | none => .next s

/-- CLR_ASSERTED (R111, R112, R118): in CLEAR_WAIT it ends the wait, at a free point of the fill bytes on the line (log 21); elsewhere only
the level of the pin changes. -/
def execClrAsserted (s : State) : Host.Outcome State Fault Refusal :=
  let s1 := { s with link := { s.link with clr := true } }
  match s.link.state with
  | .clearWait => .next ({ s1 with freeCount := s.freeCount + 1 }.enterRunning s.clrPoint)
  | _ => .next s1

/-- CLEAR_WAIT_TIMER_EXPIRY (R111, R121); a stopped timer has no expiry (R107). -/
def execClearWaitTimerExpiry (s : State) : Host.Outcome State Fault Refusal :=
  match s.link.clearWait with
  | some _ => .next (s.enterFault .notClear)
  | none => .next s

/-- The engine at loss of CLR (R88, R91, R92, R118): an open cycle ends early; in BETWEEN a cut Cycle End sets
truncated-previous, and nothing else changes. -/
def State.cutLine (s : State) : State :=
  if s.cycleOpen then s.earlyEnd
  else match s.engine.onAir with
    | some (.cycleEnd _) => { s with engine := { s.engine with truncPrev := true } }
    | _ => s

/-- CLR deasserts (R118): in RUNNING it is loss of CLR; elsewhere only the level of the pin changes. Both rows of the table
that name a deassertion are this one event of the pin (log 13). -/
def State.clrFalls (s : State) : State :=
  let s1 := { s with link := { s.link with clr := false } }
  if s.link.state = .running then s1.cutLine.enterFault .linkLost else s1

/-- LOSS_OF_CLR (R118). -/
def execLossOfClr (s : State) : Host.Outcome State Fault Refusal := .next s.clrFalls

/-- CLR_DEASSERTION (R118). -/
def execClrDeassertion (s : State) : Host.Outcome State Fault Refusal := .next s.clrFalls

/-- The pacing timer expires `ms` milliseconds after the cycle start; inside an idle fill byte the next cycle start waits for that byte's
end (R113). -/
def State.expirePacing (s : State) (ms : Nat) : State :=
  let s1 := { s with link := { s.link with pacing := .expired } }
  if s.nextEnding.isNone && !s.cycleOpen then s1.finishFillAt (s.expiryPoint ms) else s1

/-- PACING_TIMER_EXPIRY (R113); only a running timer expires (R107). -/
def execPacingTimerExpiry (s : State) : Host.Outcome State Fault Refusal :=
  match s.link.pacing with
  | .running ms => .next (s.expirePacing ms)
  | .stopped => .next s
  | .expired => .next s

/-- CYC_PULSE_END (R108, R129): CYC falls at the end of the byte-time of the Cycle Start frame's marker, so that byte-time passes (log 7).
With CYC low already there is no such event (log 3). -/
def execCycPulseEnd (s : State) : Host.Outcome State Fault Refusal :=
  if s.link.cyc then .next (byteTime s).cycFalls else .next s

end Sys2Proof.Machine
end

