-- ==== Sys2Proof/Machine/Reports.lean ====
section
/-! DEFINITION. READ and QUERY (10_the_command_port.md) and NOTICE (09_notices_and_attention.md). -/

namespace Sys2Proof.Machine

/-- READ's completion (R153). -/
def runRead (key : Key) (offset count : Nat) (s : State) : State × Result :=
  if badKey key then (s, Result.refuse .badKey)
  else if count = 0 ∨ count > 64 then (s, Result.refuse .badLength)
  else match s.dir.entryOf key with
    | none => (s, Result.refuse .noKey)
    | some e =>
      match e.body with
      | .live v =>
        if offset + count > v.length then (s, Result.refuse .overrun)
        else (s, Result.ok (readPayload s.pool.mem v.front offset count))
      | _ => (s, Result.refuse .state)

/-- READ (R153, R147). -/
def execRead (args : List Byte) (s : State) : Host.Outcome State Fault Refusal :=
  .next (s.accept args (parseRead args))

/-- QUERY's completion (R154). -/
def runQuery (key : Key) (s : State) : State × Result :=
  if badKey key then (s, Result.refuse .badKey)
  else match s.dir.entryOf key with
    | none => (s, Result.refuse .noKey)
    | some e => (s, Result.ok (e.queryResponse (s.engine.queue.contains key)))

/-- QUERY (R154, R147). -/
def execQuery (args : List Byte) (s : State) : Host.Outcome State Fault Refusal :=
  .next (s.accept args (parseQuery args))

/-- The entries in the order NOTICE scans them: keys above the cursor, then the keys up to and including it (R140). -/
def Directory.scanOrder (d : Directory) (cursor : Key) : List Entry :=
  d.filter (fun e => decide (cursor < e.key)) ++ d.filter (fun e => !decide (cursor < e.key))

/-- The entry NOTICE returns: the first one of the scan that holds a flag (R140). -/
def State.noticed (s : State) : Option Entry :=
  (s.dir.scanOrder s.notice.cursor).find? (fun e => !e.flags.isEmpty)

/-- The entry is SPENT. -/
def Entry.isSpent (e : Entry) : Bool :=
  match e.body with
  | .spent _ => true
  | _ => false

/-- The directory after NOTICE returned the entry: its flag set emptied, a SPENT entry removed (R141). -/
def Directory.collected (d : Directory) (e : Entry) : Directory :=
  if e.isSpent then d.remove e.key else d.update e.key (fun x => { x with flags := Flags.none })

/-- NOTICE's completion (R140, R141); with nothing to collect it answers OK with key 0x0000, no entry, version 0, no flags. -/
def runNotice (s : State) : State × Result :=
  match s.noticed with
  | none => (s, Result.ok (bytes16 0x0000#16 ++ [0#8, 0#8, Flags.none.byte]))
  | some e =>
    ({ s with dir := s.dir.collected e, notice := { s.notice with cursor := e.key } },
      Result.ok (bytes16 e.key ++ [e.body.stateByte, e.body.versionByte, e.flags.byte]))

/-- NOTICE (R141, R147). -/
def execNotice (args : List Byte) (s : State) : Host.Outcome State Fault Refusal :=
  .next (s.accept args .notice)

end Sys2Proof.Machine
end

