-- ==== Sys2Proof/Machine/Sessions.lean ====
section
/-! DEFINITION. Change sessions (03_change_sessions.md): OPEN, WRITE, COMMIT, CANCEL. Each row is the transaction; the
command's act, run at COMMAND_COMPLETION, is the definition whose name begins with run. -/

namespace Sys2Proof.Machine

/-! ## OPEN (R34 to R38) -/

/-- OPEN's argument checks: key, length, class (R34). -/
def openArgsRefusal (key : Key) (kind : Kind) (cls length : Nat) : Option ResultCode :=
  if badKey key then some .badKey
  else if length > 1024 || (kind == .feed && length == 0) then some .badLength
  else if cls > 3 then some .badClass
  else none

/-- OPEN's checks of the key against slots and directory, of the slots, of the directory's room and of the free count, in that
order (R35 to R37). -/
def openStateRefusal (key : Key) (kind : Kind) (length : Nat) (s : State) : Option ResultCode :=
  if s.slots.holds key then some .keyOpen
  else match s.dir.entryOf key with
    | some e =>
      match e.body with
      | .spent _ => some .keySpent
      | _ =>
        if s.slots.lowestFree.isNone then some .noSlot
        else if blocksTaken kind length > s.pool.free.length then some .noSpace
        else none
    | none =>
      if s.slots.lowestFree.isNone then some .noSlot
      else if s.dir.length ≥ Config.directoryRoom then some .tableFull
      else if blocksTaken kind length > s.pool.free.length then some .noSpace
      else none

/-- The session an OPEN begins: its blocks from the head of the free list, staging first, then spare for FEED (R22, R38). -/
def openedSession (key : Key) (kind : Kind) (cls length : Nat) (free : List Block) : Session :=
  { key := key, cls := cls, length := length, staging := free.take (blocksFor length)
    spare := match kind with
      | .stored => none
      | .feed => some ((free.drop (blocksFor length)).take (blocksFor length))
    fill := 0 }

/-- A new STAGED entry (R11). -/
def stagedEntry (key : Key) (n : SlotNo) : Entry :=
  { key := key, sent := false, flags := Flags.none, body := .staged n }

/-- The directory after an OPEN took slot `n`: a new STAGED entry, or the slot field of the existing entry (R11, R12). -/
def Directory.opened (d : Directory) (key : Key) (n : SlotNo) : Directory :=
  match d.entryOf key with
  | some _ => d.update key (Entry.withSlot (some n))
  | none => d.insert (stagedEntry key n)

/-- An OPEN that passes every check (R38). -/
def State.openSlot (s : State) (key : Key) (kind : Kind) (cls length : Nat) (n : SlotNo) : State :=
  { s with
    slots := s.slots.put n (some (openedSession key kind cls length s.pool.free))
    pool := { s.pool with free := s.pool.free.drop (blocksTaken kind length) }
    dir := s.dir.opened key n }

/-- OPEN's completion (R34 to R38): the first check that fails gives the result and changes nothing. -/
def runOpen (key : Key) (kind : Kind) (cls length : Nat) (s : State) : State × Result :=
  match openArgsRefusal key kind cls length with
  | some c => (s, Result.refuse c)
  | none =>
    match openStateRefusal key kind length s with
    | some c => (s, Result.refuse c)
    | none =>
      match s.slots.lowestFree with
      | some n => (s.openSlot key kind cls length n, Result.ok [byteOf n.val])
      | none => (s, Result.refuse .noSlot)

/-- OPEN (R38, R147). -/
def execOpen (args : List Byte) (s : State) : Host.Outcome State Fault Refusal :=
  .next (s.accept args (parseOpen args))

/-! ## WRITE (R40, R41) -/

/-- The session after a WRITE's bytes. -/
def Session.written (x : Session) (fill : Nat) : Session := { x with fill := fill }

/-- WRITE's completion (R40, R41). -/
def runWrite (slot offset : Nat) (data : List Byte) (s : State) : State × Result :=
  match slotNoOf slot with
  | none => (s, Result.refuse .badSlot)
  | some n =>
    if data.length = 0 ∨ data.length > 64 then (s, Result.refuse .badLength)
    else match s.slots.at n with
      | none => (s, Result.refuse .state)
      | some x =>
        if offset ≠ x.fill then (s, Result.refuse .sequence)
        else if offset + data.length > x.length then (s, Result.refuse .overrun)
        else
          let y := x.written (offset + data.length)
          ({ s with
              slots := s.slots.put n (some y)
              pool := { s.pool with mem := writePayload s.pool.mem x.staging offset data } },
            Result.ok (countBytes y.fill ++ [slotStateByte (some y)]))

/-- WRITE (R41, R147). -/
def execWrite (args : List Byte) (s : State) : Host.Outcome State Fault Refusal :=
  .next (s.accept args (parseWrite args))

/-! ## COMMIT (R42 to R49) -/

/-- The version a COMMIT installs: 1 on a STAGED entry, else the previous version + 1, modulo 256 (R44). -/
def Body.nextVersion : Body → Byte
  | .staged _ => 1#8
  | .live v => v.version + 1#8
  | .withdrawing l _ _ => l.version + 1#8
  | .spent l => l.version + 1#8

/-- The confirmation pending on an entry. -/
def Body.confirm : Body → Option Confirm
  | .live v => v.confirm
  | _ => none

/-- The notice flags after a COMMIT: SUPERSEDED for a pending confirmation, FEED_DUE cleared by a STORED version (R13). -/
def Flags.committed (f : Flags) (pending : Option Confirm) (kind : Kind) : Flags :=
  match kind with
  | .stored => (f.supersede pending).clearFeedDue
  | .feed => f.supersede pending

/-- The fields of the LIVE entry a COMMIT installs (R13, R46). -/
def Session.installed (x : Session) (version : Byte) (confirm : Bool) : Live :=
  { cls := x.cls, version := version, length := x.length, front := x.staging
    feed := x.spare.map (fun c => { back := c, fill := 0, fresh := false })
    confirm := if confirm then some { age := 0, overdueRaised := false } else none
    slot := none }

/-- The entry after a COMMIT of the session (R13). -/
def Entry.commit (x : Session) (confirm : Bool) (e : Entry) : Entry :=
  { e with
    flags := e.flags.committed e.body.confirm x.kind
    body := .live (x.installed e.body.nextVersion confirm) }

/-- The pool after the chains an entry held before leave it (R26): only a LIVE entry holds any. -/
def Pool.displaceBody (p : Pool) (onAir : Option AirFrame) (key : Key) (b : Body) : Pool :=
  match b with
  | .live v => p.displace onAir key v
  | _ => p

/-- A COMMIT in DORMANT wakes the link (R49, R120); in every other state it leaves the link. -/
def State.wake (s : State) : State := if s.link.state = .dormant then s.enterKeying else s

/-- A COMMIT of the session in slot `n` whose key has the entry `e` (R43), before the wake. -/
def State.install (s : State) (n : SlotNo) (x : Session) (confirm : Bool) (e : Entry) : State :=
  { s with
    dir := s.dir.update x.key (Entry.commit x confirm)
    pool := s.pool.displaceBody s.engine.onAir x.key e.body
    slots := s.slots.put n none
    engine := { s.engine with generation := s.engine.generation + 1#16 } }

/-- COMMIT's completion (R42, R43). A non-FREE slot's key has an entry in every state a run reaches (R33); without one the
command is answered STATE and changes nothing (log 17). -/
def runCommit (slot : Nat) (confirm : Bool) (s : State) : State × Result :=
  match slotNoOf slot with
  | none => (s, Result.refuse .badSlot)
  | some n =>
    match s.slots.at n with
    | none => (s, Result.refuse .state)
    | some x =>
      if x.full then
        match s.dir.entryOf x.key with
        | some e =>
          ((s.install n x confirm e).wake, Result.ok (bytes16 x.key ++ [e.body.nextVersion]))
        | none => (s, Result.refuse .state)
      else (s, Result.refuse .incomplete)

/-- COMMIT (R43, R147). -/
def execCommit (args : List Byte) (s : State) : Host.Outcome State Fault Refusal :=
  .next (s.accept args (parseCommit args))

/-! ## CANCEL (R50) -/

/-- The entry is STAGED. -/
def Entry.isStaged (e : Entry) : Bool :=
  match e.body with
  | .staged _ => true
  | _ => false

/-- The directory after a CANCEL on the key: a STAGED entry is removed, any other loses its slot field (R14). -/
def Directory.cancelled (d : Directory) (key : Key) : Directory :=
  match d.entryOf key with
  | some e => if e.isStaged then d.remove key else d.update key (Entry.withSlot none)
  | none => d

/-- CANCEL's completion (R50): staging, then spare, to the free list; the last response byte is 1 if a STAGED entry was
removed. -/
def runCancel (slot : Nat) (s : State) : State × Result :=
  match slotNoOf slot with
  | none => (s, Result.refuse .badSlot)
  | some n =>
    match s.slots.at n with
    | none => (s, Result.refuse .state)
    | some x =>
      ({ s with
          slots := s.slots.put n none
          pool := s.pool.release x.chains
          dir := s.dir.cancelled x.key },
        Result.ok (bytes16 x.key ++ [yesNo ((s.dir.entryOf x.key).any Entry.isStaged)]))

/-- CANCEL (R50, R147). -/
def execCancel (args : List Byte) (s : State) : Host.Outcome State Fault Refusal :=
  .next (s.accept args (parseCancel args))

end Sys2Proof.Machine
end

