-- ==== Sys2Proof/Machine/Retirement.lean ====
section
/-! DEFINITION. Retirement (04_retirement_and_withdrawal.md): RETIRE, RETIRE_GROUP and the walk's RETIRE_GROUP_VISIT. -/

namespace Sys2Proof.Machine

/-- What a LIVE entry keeps when it is retired (R8, R15). -/
def Live.last (v : Live) : Last := { kind := v.kind, cls := v.cls, version := v.version, length := v.length }

/-- A LIVE entry retired with remaining count `w` (R15): SUPERSEDED for a pending confirmation, FEED_DUE cleared, slot kept. An
entry in another state is left. -/
def Entry.retire (w : Nat) (e : Entry) : Entry :=
  match e.body with
  | .live v =>
    { e with flags := (e.flags.supersede v.confirm).clearFeedDue, body := .withdrawing v.last w v.slot }
  | _ => e

/-- A LIVE entry of the key is retired: its chains leave it and the generation advances (R27, R55). -/
def State.retireLive (s : State) (key : Key) (v : Live) : State :=
  { s with
    dir := s.dir.update key (Entry.retire s.params.withdrawals)
    pool := s.pool.displace s.engine.onAir key v
    engine := { s.engine with generation := s.engine.generation + 1#16 } }

/-- RETIRE's completion (R54, R55). -/
def runRetire (key : Key) (s : State) : State × Result :=
  if badKey key then (s, Result.refuse .badKey)
  else match s.dir.entryOf key with
    | none => (s, Result.refuse .noKey)
    | some e =>
      match e.body with
      | .live v =>
        (s.retireLive key v, Result.ok (bytes16 key ++ [v.version, byteOf s.params.withdrawals]))
      | _ => (s, Result.refuse .state)

/-- RETIRE (R55, R147). -/
def execRetire (args : List Byte) (s : State) : Host.Outcome State Fault Refusal :=
  .next (s.accept args (parseRetire args))

/-- An accepted RETIRE GROUP: a group over 15 completes at once with BAD_KEY; else the walk starts with no key visited (R58). A
short frame completes with SHORT (R149). -/
def State.startGroup (group : Option Nat) (s : State) : State :=
  match group with
  | none => s.begin (.command .short)
  | some g => if g > 15 then s.finish (Result.refuse .badKey) else s.begin (.groupWalk g none 0 0)

/-- RETIRE_GROUP (R58, R147). -/
def execRetireGroup (args : List Byte) (s : State) : Host.Outcome State Fault Refusal :=
  .next (s.gated args.length (State.startGroup (parseGroup args)))

/-- The walk's next entry: the smallest key of the group above the last visited key (R59). -/
def Directory.nextOfGroup (d : Directory) (group : Nat) (last : Option Key) : Option Entry :=
  d.find? (fun e => groupOf e.key == group && aboveCursor last e.key)

/-- One step of the walk (R59): a visit, or the completion when no entry is left. -/
def State.walkStep (s : State) (group : Nat) (last : Option Key) (retired skipped : Nat) : State :=
  match s.dir.nextOfGroup group last with
  | none => s.finish (Result.ok (countBytes retired ++ countBytes skipped))
  | some e =>
    match e.body with
    | .live v => (s.retireLive e.key v).begin (.groupWalk group (some e.key) (retired + 1) skipped)
    | _ => s.begin (.groupWalk group (some e.key) retired (skipped + 1))

/-- RETIRE_GROUP_VISIT (R59); without a walk there is no such event (log 3). -/
def execRetireGroupVisit (s : State) : Host.Outcome State Fault Refusal :=
  match s.port.task with
  | some (.groupWalk g last r k) => .next (s.walkStep g last r k)
  | _ => .next s

end Sys2Proof.Machine
end

