-- ==== Sys2Proof/Machine/Completion.lean ====
section
/-! DEFINITION. What the port makes of byte 0 of a frame, with the row UNKNOWN (R147, R149, R158), and COMMAND_COMPLETION: the
instant at which an accepted command acts (R147, R150). -/

namespace Sys2Proof.Machine

/-- UNKNOWN (R149): byte 0 of the frame names the command (R158). A code that is not in the command table is accepted like any command; it
will complete with UNKNOWN and no argument is examined. A code of the table is that command's transaction, though the row is not meant
for one (log 18). -/
def execUnknown (code : Byte) (args : List Byte) (s : State) : Host.Outcome State Fault Refusal :=
  match code.toNat with
  | 0x01 => execStatus args s
  | 0x02 => execResult args s
  | 0x03 => execStop args s
  | 0x10 => execOpen args s
  | 0x11 => execWrite args s
  | 0x12 => execCommit args s
  | 0x13 => execCancel args s
  | 0x18 => execRetire args s
  | 0x19 => execRetireGroup args s
  | 0x20 => execFeed args s
  | 0x28 => execRead args s
  | 0x29 => execQuery args s
  | 0x2A => execNotice args s
  | 0x30 => execStart args s
  | 0x31 => execConfigure args s
  | 0x3F => execClear args s
  | _ => .next (s.accept args .unknown)

/-- An accepted command's checks and act, with its result (R149 and the command's own rules). -/
def runCommand (c : Command) (s : State) : State × Result :=
  match c with
  | .short => (s, Result.refuse .short)
  | .unknown => (s, Result.refuse .unknown)
  | .openSession key kind cls length => runOpen key kind cls length s
  | .write slot offset data => runWrite slot offset data s
  | .commit slot confirm => runCommit slot confirm s
  | .cancel slot => runCancel slot s
  | .retire key => runRetire key s
  | .feed key offset data => runFeed key offset data s
  | .read key offset count => runRead key offset count s
  | .query key => runQuery key s
  | .notice => runNotice s
  | .start => runStart s
  | .configure code value => runConfigure code value s

/-- The command acts, its result goes into the result slot, RESULT_READY becomes yes and BUSY no, in that single completion
(R147). -/
def State.completeCommand (c : Command) (s : State) : State := (runCommand c s).1.finish (runCommand c s).2

/-- COMMAND_COMPLETION (R147); without an accepted command there is no such event (log 3). -/
def execCommandCompletion (s : State) : Host.Outcome State Fault Refusal :=
  match s.port.task with
  | some (.command c) => .next (s.completeCommand c)
  | _ => .next s

end Sys2Proof.Machine
end

