-- ==== Sys2Proof/Machine/Playout.lean ====
section
/-! DEFINITION. The playout engine's rows (05_the_carousel_cycle.md): CYCLE_START, FRAME_CHOICE and the frame ends. -/

namespace Sys2Proof.Machine

/-! ## Cycle start (R71, R72, R95, R133, R134, R137) -/

/-- A pending confirmation at a cycle start: the age rises, stopping at 15 (R133); at or above C it raises OVERDUE once (R134). -/
def Confirm.aged (limit : Nat) (c : Confirm) : Confirm :=
  let age := min (c.age + 1) 15
  { age := age, overdueRaised := c.overdueRaised || decide (limit ≤ age) }

/-- The aging raises OVERDUE: it reaches the limit and has not raised it before (R134). -/
def Confirm.goesOverdue (limit : Nat) (c : Confirm) : Bool :=
  !c.overdueRaised && decide (limit ≤ min (c.age + 1) 15)

/-- The flags of a LIVE entry at a cycle start: OVERDUE from the aging (R134), FEED_DUE for a FEED entry due in the new cycle
(R95). -/
def Flags.atCycleStart (f : Flags) (limit : Nat) (cycle : Word16) (key : Key) (v : Live) : Flags :=
  { f with
    overdue := f.overdue || v.confirm.any (Confirm.goesOverdue limit)
    feedDue := f.feedDue || (v.feed.isSome && isDue v.cls key cycle) }

/-- An entry at the start of cycle `cycle` (R72, R95, R133, R134): sent-this-cycle becomes no; a LIVE entry's confirmation ages and
its flags follow. -/
def Entry.atCycleStart (limit : Nat) (cycle : Word16) (e : Entry) : Entry :=
  match e.body with
  | .live v =>
    { e with
      sent := false
      flags := e.flags.atCycleStart limit cycle e.key v
      body := .live { v with confirm := v.confirm.map (Confirm.aged limit) } }
  | _ => { e with sent := false }

/-- The pacing timer started with P; with P = 0 it expires at the same instant (R113). -/
def Pacing.startedWith (ms : Nat) : Pacing := if ms = 0 then .expired else .running ms

/-- The Cycle Start frame of the cycle about to start (R72, R129). -/
def State.cycleStartFrame (s : State) : CycleStartFrame :=
  { cycle := s.engine.cycle + 1#16, generation := s.engine.generation, liveCount := s.liveCount
    carryCount := min s.engine.queue.length 255, first := s.link.firstPending
    truncatedPrevious := s.engine.truncPrev }

/-- The engine at a cycle start (R72). -/
def Engine.started (en : Engine) (budget : Nat) (first : Bool) : Engine :=
  { en with
    cycle := en.cycle + 1#16, phase := .carry, budget := budget, firstSent := false, frames := 0#16, cursor := none
    served := [], bare := if first then 0 else en.bare, truncPrev := false }

/-- The cycle start event in all three blocks (R71, R72). -/
def State.startCycle (s : State) : State :=
  { s with
    dir := s.dir.map (Entry.atCycleStart s.params.confirmLimit (s.engine.cycle + 1#16))
    engine := s.engine.started s.params.budget s.link.firstPending
    link := { s.link with pacing := Pacing.startedWith s.params.period, firstPending := false, cyc := true }
    notice := { s.notice with conds := s.notice.conds.raiseCycleStart s.params.cycleAttention }
    }.beginFrame (.cycleStart s.cycleStartFrame)

/-- CYCLE_START (R72), when the gap bytes of the last Cycle End, or the fill byte on the line, have been sent (R113, log 7); where no
cycle may start there is no such event (log 3). -/
def execCycleStart (s : State) : Host.Outcome State Fault Refusal :=
  if s.cycleAllowed then .next s.sendGap.startCycle else .next s

/-! ## Frame choice (R74 to R80, R83, R84, R99, R100) -/

/-- A queued key comes up as a candidate (R75). -/
def Directory.servable (d : Directory) (k : Key) : Bool := (d.entryOf k).any Entry.servable

/-- The drops and the move from CARRY to WALK that take place within one choice (R74, R75). -/
def State.settleQueue (s : State) : State :=
  if s.engine.phase = .carry then
    match s.engine.queue.dropWhile (fun k => !s.dir.servable k) with
    | [] => { s with engine := { s.engine with queue := [], phase := .walk, cursor := none } }
    | k :: q => { s with engine := { s.engine with queue := k :: q } }
  else s

/-- The candidate of a choice, with the phase it comes from (R75, R76). -/
def State.candidate (s : State) : Option (Source × Entry) :=
  match s.engine.phase with
  | .between => none
  | .carry => (s.engine.queue.head?.bind s.dir.entryOf).map (fun e => (.carry, e))
  | .walk => s.walkCandidates.head?.map (fun e => (.walk, e))

/-- The cost of a candidate's frame, in frame units (R78). -/
def Body.cost : Body → Nat
  | .live v => 10 + v.length
  | .withdrawing _ _ _ => 8
  | .staged _ => 0
  | .spent _ => 0

/-- The budget check (R79). -/
def Engine.fits (en : Engine) (cost : Nat) : Bool := !en.firstSent || decide (cost ≤ en.budget)

/-- A swap is made at this frame start: the back chain is fresh (R99). -/
def Live.swaps (v : Live) : Bool := v.feed.any Feed.fresh

/-- The LIVE fields after a frame start (R99, R100): a fresh back chain is swapped in, the version advances and a pending
confirmation ends. -/
def Live.atFrameStart (v : Live) : Live :=
  match v.feed with
  | some f =>
    if f.fresh then
      { v with version := v.version + 1#8, front := f.back, feed := some { back := v.front, fill := 0, fresh := false }
               confirm := none }
    else v
  | none => v

/-- The flags after a Record frame start (R99, R100): SUPERSEDED when a swap ends a confirmation, FEED_STALE when a FEED record is
not fresh. -/
def Flags.atFrameStart (f : Flags) (v : Live) : Flags :=
  if v.swaps then f.supersede v.confirm
  else if v.feed.isSome then f.addFeedStale
  else f

/-- The entry after its frame start; a Withdrawal frame start changes nothing in it. -/
def Entry.atFrameStart (e : Entry) : Entry :=
  match e.body with
  | .live v => { e with flags := e.flags.atFrameStart v, body := .live v.atFrameStart }
  | _ => e

/-- The frame fixed at a frame start (R80): absent for an entry in a state no frame is sent for. -/
def Entry.frame (source : Source) (e : Entry) : Option AirFrame :=
  match e.body with
  | .live v =>
    let w := v.atFrameStart
    some (.record { key := e.key, source := source, version := w.version, cls := w.cls, kind := w.kind
                    length := w.length, stale := w.feed.isSome && !v.swaps, chain := w.front })
  | .withdrawing l r _ =>
    some (.withdrawal { key := e.key, source := source, version := l.version, after := r - 1 })
  | .staged _ => none
  | .spent _ => none

/-- The engine at a frame start (R80): the cost charged; in WALK the cursor moves; in CARRY the key leaves the head of the
queue. -/
def Engine.charged (en : Engine) (source : Source) (key : Key) (cost : Nat) : Engine :=
  match source with
  | .carry => { en with budget := en.budget - cost, firstSent := true, queue := en.queue.tail }
  | .walk => { en with budget := en.budget - cost, firstSent := true, cursor := some key }

/-- A frame start for the candidate (R80). -/
def State.startFrame (s : State) (source : Source) (e : Entry) : State :=
  match e.frame source with
  | some f =>
    { s with
      dir := s.dir.update e.key Entry.atFrameStart
      engine := s.engine.charged source e.key e.body.cost }.beginFrame f
  | none => s

/-- Nothing to send and nothing to keep (R87). -/
def State.bareNow (s : State) : Bool :=
  !s.engine.firstSent && s.engine.queue.isEmpty && s.dir.all (fun e => !e.body.onCarousel)

/-- A normal or overflow close, the queue already built (R83, R84, R86, R87). -/
def State.closeCycle (s : State) : State :=
  { s with engine := { s.engine with
      phase := .between, bare := if s.bareNow then min (s.engine.bare + 1) 15 else 0 } }.beginFrame
    (.cycleEnd { cycle := s.engine.cycle, frames := s.engine.frames, truncated := false })

/-- An overflow close (R84): the candidate and every other candidate still owed stand in the queue. -/
def State.overflowClose (s : State) : State :=
  { s with engine := { s.engine with queue := s.queueWithOwed s.engine.queue } }.closeCycle

/-- The choice once the queue is settled (R74): a frame start, an overflow close or a normal close. -/
def State.choose (s : State) : State :=
  match s.candidate with
  | none => s.closeCycle
  | some (source, e) => if s.engine.fits e.body.cost then s.startFrame source e else s.overflowClose

/-- FRAME_CHOICE (R74), when the gap bytes of the last frame have been sent (R124, log 7): a FRAME point pending ends the cycle early;
else the queue is settled and the choice made. Where no choice is made there is no such event (log 3). -/
def execFrameChoice (s : State) : Host.Outcome State Fault Refusal :=
  if s.choiceAllowed then
    if s.link.stop = .frame then .next (s.sendGap.truncatedEnd []) else .next s.sendGap.settleQueue.choose
  else .next s

/-! ## Frame ends (R81, R82, R63, R16)

The row of a frame's end is the instant at which the frame's last byte has been sent: the bytes still to be sent go on the line first
(R127, log 7). -/

/-- The entry at the end of a completed Record frame of version `version` (R81, R82): sent-this-cycle yes; a pending confirmation
completes when the versions agree. -/
def Entry.recordSent (version : Byte) (e : Entry) : Entry :=
  match e.body with
  | .live v =>
    if v.confirm.isSome && version == v.version then
      { e with sent := true, flags := e.flags.addConfirmed, body := .live { v with confirm := none } }
    else { e with sent := true }
  | _ => { e with sent := true }

/-- The withdrawal of the entry ends at this completed Withdrawal frame: the count stands at 1 and no slot is open (R16). -/
def Entry.withdrawalEnds (e : Entry) : Bool :=
  match e.body with
  | .withdrawing _ r none => decide (r ≤ 1)
  | _ => false

/-- The entry at the end of a completed Withdrawal frame (R16, R63, R81): sent-this-cycle yes; the count falls by 1, is held at 1
by an open slot, or, at the end of the withdrawal, gives way to SPENT with WITHDRAWN. -/
def Entry.withdrawalSent (e : Entry) : Entry :=
  match e.body with
  | .withdrawing l r o =>
    if r ≤ 1 then
      match o with
      | some _ => { e with sent := true }
      | none => { e with sent := true, flags := e.flags.addWithdrawn, body := .spent l }
    else { e with sent := true, body := .withdrawing l (r - 1) o }
  | _ => { e with sent := true }

/-- The directory at the end of a completed Withdrawal frame for the key (R16): with the spent-notice option off an ended
withdrawal removes the entry. -/
def Directory.withdrawalSent (d : Directory) (key : Key) (spentNotice : Bool) : Directory :=
  if !spentNotice && (d.entryOf key).any Entry.withdrawalEnds then d.remove key
  else d.update key Entry.withdrawalSent

/-- The carry-served list gains the key of a frame chosen in CARRY; a set (R77, R81). -/
def servedWith (served : List Key) (source : Source) (key : Key) : List Key :=
  match source with
  | .carry => if served.contains key then served else served ++ [key]
  | .walk => served

/-- The engine's own effects at the end of a completed Record or Withdrawal frame (R29, R81). -/
def State.countFrame (s : State) (source : Source) (key : Key) : State :=
  { s with
    pool := s.pool.releaseHold
    engine := { s.engine with
      frames := s.engine.frames + 1#16, served := servedWith s.engine.served source key, onAir := none } }

/-- CYCLE_START_FRAME_END (R89, R124). -/
def execCycleStartFrameEnd (s : State) : Host.Outcome State Fault Refusal :=
  match s.engine.onAir with
  | some (.cycleStart _) => .next s.sendToFrameEnd.afterFrame
  | _ => .next s

/-- A completed Record frame's own effects (R81, R82). -/
def State.recordDone (s : State) (f : RecordFrame) : State :=
  { s.countFrame f.source f.key with dir := s.dir.update f.key (Entry.recordSent f.version) }

/-- RECORD_FRAME_END (R81, R89). -/
def execRecordFrameEnd (s : State) : Host.Outcome State Fault Refusal :=
  match s.engine.onAir with
  | some (.record f) => .next (s.sendToFrameEnd.recordDone f).afterFrame
  | _ => .next s

/-- A completed Withdrawal frame's own effects (R16, R63, R81). -/
def State.withdrawalDone (s : State) (f : WithdrawalFrame) : State :=
  { s.countFrame f.source f.key with dir := s.dir.withdrawalSent f.key s.params.spentNotice }

/-- WITHDRAWAL_FRAME_END (R63, R89). -/
def execWithdrawalFrameEnd (s : State) : Host.Outcome State Fault Refusal :=
  match s.engine.onAir with
  | some (.withdrawal f) => .next (s.sendToFrameEnd.withdrawalDone f).afterFrame
  | _ => .next s

/-- The engine reports that the bare-cycle count reached H at this close (R87, R119); never with H = 0. At the end of a closing
Cycle End the count and H still stand as they stood at the close (DEDUCED, log 16). A COMMIT that completes between the two, and
a RETIRE of its key after it, do not change the report, though the entry is LIVE (R49, R119) or WITHDRAWING (R66) and the link goes
DORMANT with it (DESIGN CHOICE, log 24). -/
def State.goneBare (s : State) : Bool := s.params.bareLimit != 0 && s.engine.bare == s.params.bareLimit

/-- CYCLE_END_FRAME_END (R89, R116, R117, R119): HALTED when a stop point is pending, and always after a truncated Cycle End; else
DORMANT when the carousel has gone bare (log 24 for a COMMIT, or a COMMIT and a RETIRE, during the frame); else RUNNING goes on and G
gap bytes follow. -/
def execCycleEndFrameEnd (s : State) : Host.Outcome State Fault Refusal :=
  match s.nextEnding with
  | some (.cycleEnd f) =>
    if s.link.stop ≠ .none ∨ f.truncated = true then .next s.sendToFrameEnd.enterHalted
    else if s.goneBare then .next s.sendToFrameEnd.enterDormant
    else .next (s.sendToFrameEnd.endFrame s.params.gap)
  | _ => .next s

/-- ABORT_FRAME_END (R116). -/
def execAbortFrameEnd (s : State) : Host.Outcome State Fault Refusal :=
  match s.nextEnding with
  | some .abort => .next s.sendToFrameEnd.enterHalted
  | _ => .next s

end Sys2Proof.Machine
end

