-- ==== Sys2Proof/Machine/PowerOn.lean ====
section
/-! DEFINITION. Power-on reset and initialisation (R151): POWER_ON_RESET, POWER_ON_INITIALISATION, INITIALISATION_END. -/

namespace Sys2Proof.Machine

/-- POWER_ON_RESET (R151): RSTN low abandons everything. The blocks are held at their power-on values while it is low (log
11), so KEY is off, the line still, CYC low and ATTN released. -/
def execPowerOnReset (s : State) : Host.Outcome State Fault Refusal :=
  .next { State.powerOn s.pool.mem s.link.clr s.freeCount s.pending with rstn := false }

/-- POWER_ON_INITIALISATION (R151): RSTN rises; every block takes its power-on values and initialisation begins, BUSY set.
Given with RSTN high it stands for a low pulse that ends here (log 11). -/
def execPowerOnInitialisation (s : State) : Host.Outcome State Fault Refusal :=
  .next (State.powerOn s.pool.mem s.link.clr s.freeCount s.pending)

/-- INITIALISATION_END (R151): BUSY becomes no, the result slot and the read-out buffer are empty, REFUSED is kept. Without
an initialisation in progress there is no such event (log 3). -/
def execInitialisationEnd (s : State) : Host.Outcome State Fault Refusal :=
  if s.rstn && s.port.task == some .initialisation then
    .next { s with port := { s.port with task := none, result := none, readOut := [] } }
  else .next s

end Sys2Proof.Machine
end

