-- ==== Sys2Proof/Machine/Dispatch.lean ====
section
/-! DEFINITION. One arm per command or event: exec is its effect on everything but the queue. -/

namespace Sys2Proof.Machine

/-- The effect of one command or event of spec/opcode_table.json. -/
def exec (i : Instr) (s : State) : Host.Outcome State Fault Refusal :=
  match i with
  | .powerOnReset => Sys2Proof.Machine.execPowerOnReset s
  | .powerOnInitialisation => Sys2Proof.Machine.execPowerOnInitialisation s
  | .initialisationEnd => Sys2Proof.Machine.execInitialisationEnd s
  | .emptyTransaction edge => Sys2Proof.Machine.execEmptyTransaction edge s
  | .unknown code args => Sys2Proof.Machine.execUnknown code args s
  | .status args => Sys2Proof.Machine.execStatus args s
  | .result args => Sys2Proof.Machine.execResult args s
  | .stop args => Sys2Proof.Machine.execStop args s
  | .openSession args => Sys2Proof.Machine.execOpen args s
  | .write args => Sys2Proof.Machine.execWrite args s
  | .commit args => Sys2Proof.Machine.execCommit args s
  | .cancel args => Sys2Proof.Machine.execCancel args s
  | .retire args => Sys2Proof.Machine.execRetire args s
  | .retireGroup args => Sys2Proof.Machine.execRetireGroup args s
  | .retireGroupVisit => Sys2Proof.Machine.execRetireGroupVisit s
  | .feed args => Sys2Proof.Machine.execFeed args s
  | .read args => Sys2Proof.Machine.execRead args s
  | .query args => Sys2Proof.Machine.execQuery args s
  | .notice args => Sys2Proof.Machine.execNotice args s
  | .start args => Sys2Proof.Machine.execStart args s
  | .configure args => Sys2Proof.Machine.execConfigure args s
  | .clear args => Sys2Proof.Machine.execClear args s
  | .clearCompletion => Sys2Proof.Machine.execClearCompletion s
  | .keyUpTimerExpiry => Sys2Proof.Machine.execKeyUpTimerExpiry s
  | .clrAsserted => Sys2Proof.Machine.execClrAsserted s
  | .clearWaitTimerExpiry => Sys2Proof.Machine.execClearWaitTimerExpiry s
  | .lossOfClr => Sys2Proof.Machine.execLossOfClr s
  | .pacingTimerExpiry => Sys2Proof.Machine.execPacingTimerExpiry s
  | .cycleStart => Sys2Proof.Machine.execCycleStart s
  | .cycleStartFrameEnd => Sys2Proof.Machine.execCycleStartFrameEnd s
  | .frameChoice => Sys2Proof.Machine.execFrameChoice s
  | .recordFrameEnd => Sys2Proof.Machine.execRecordFrameEnd s
  | .withdrawalFrameEnd => Sys2Proof.Machine.execWithdrawalFrameEnd s
  | .cycleEndFrameEnd => Sys2Proof.Machine.execCycleEndFrameEnd s
  | .abortFrameEnd => Sys2Proof.Machine.execAbortFrameEnd s
  | .commandCompletion => Sys2Proof.Machine.execCommandCompletion s
  | .clrDeassertion => Sys2Proof.Machine.execClrDeassertion s
  | .cycPulseEnd => Sys2Proof.Machine.execCycPulseEnd s

end Sys2Proof.Machine
end

