-- ==== Sys2Proof/Machine/Step.lean ====
section
/-! DEFINITION. One step of the device: the command or event at the front of the queue, or, on an empty queue, one byte-time of
the carousel link. -/

namespace Sys2Proof.Machine

/-- One step (log 6, log 20): the front of the queue acts on the state with the queue's rest; with nothing waiting, one byte-time
of the link passes. -/
def step (s : State) : Host.Outcome State Fault Refusal :=
  match s.pending with
  | [] => .next (byteTime s)
  | c :: rest => exec c { s with pending := rest }

/-- The state with the command that a table word spells put at the front of the queue; unchanged where the word spells none, as
every word does here (Sys2Proof/Decode.lean). -/
def State.withFetchWord (s : State) (nbits w : Nat) : State :=
  match decodeTableWord nbits w with
  | some c => { s with pending := c :: s.pending }
  | none => s

end Sys2Proof.Machine
end

