-- ==== Sys2Proof/Safety.lean ====
section
/-! DEFINITION. What the spec promises of every state a run reaches, and the words the claims are said in. -/

namespace Sys2Proof.Machine

/-- The directory's promise (R1, R7): keys strictly ascending, at most 256 entries, every key valid. -/
abbrev State.directoryOk (s : State) : Prop :=
  s.dir.Pairwise (fun a b => a.key < b.key) ∧ s.dir.length ≤ Config.directoryRoom ∧
    ∀ e ∈ s.dir, badKey e.key = false

/-- The ranges of a LIVE entry's fields (R4, R5, R8, R94, R133): each chain has ceil(length / 32) blocks, the feed fill stands
below the length, the confirm age is at most 15. -/
abbrev Live.ok (v : Live) : Prop :=
  v.cls ≤ 3 ∧ v.length ≤ 1024 ∧ v.front.length = blocksFor v.length ∧
    (∀ f ∈ v.feed, f.back.length = blocksFor v.length ∧ f.fill < v.length ∧ (f.fresh = true → f.fill = 0)) ∧
    ∀ c ∈ v.confirm, c.age ≤ 15

/-- The ranges of the fields a WITHDRAWING or SPENT entry keeps (R4, R5). -/
abbrev Last.ok (l : Last) : Prop := l.cls ≤ 3 ∧ l.length ≤ 1024

/-- An entry's promise in its state, W being the withdrawal count (R8, R17): no flag on a STAGED entry, a remaining count of 1 to
W on a WITHDRAWING one, WITHDRAWN held by a SPENT one. -/
def Entry.ok (w : Nat) (e : Entry) : Prop :=
  match e.body with
  | .staged _ => e.flags = Flags.none
  | .live v => v.ok
  | .withdrawing l r _ => l.ok ∧ 1 ≤ r ∧ r ≤ w
  | .spent l => l.ok ∧ e.flags.withdrawn = true

/-- Every entry keeps its promise. -/
def State.entriesOk (s : State) : Prop := ∀ e ∈ s.dir, e.ok s.params.withdrawals

/-- CYC and the byte on the line (R108, R129): while CYC is high that byte is the marker of a Cycle Start frame, on air or, after a STOP,
being finished before the Abort (R90); and while a Cycle Start frame's marker is on the line, the frame on air, CYC is high. -/
structure State.CycOk (s : State) : Prop where
  high : s.link.cyc = true →
    (∃ f, s.engine.onAir = some (.cycleStart f)) ∧ s.encoder.place = 0 ∧ s.encoder.pairFirst = false ∨
      s.engine.onAir = none ∧ ∃ f, s.encoder.waiting = some { lead := [marker], frame := f }
  marker : ∀ f, s.engine.onAir = some (.cycleStart f) → s.encoder.place = 0 →
    s.link.cyc = true ∧ s.encoder.pairFirst = false

/-- The link controller's promise (R107, R108, R118): the cause is NONE but in FAULT; stop point, first-cycle mark, pacing timer, CYC,
frame on air and open cycle only in RUNNING; the key-up timer runs exactly in KEYING, the clear-wait timer exactly in CLEAR_WAIT;
RUNNING only while CLR is asserted; a frame waits for a byte boundary only after a STOP in RUNNING. -/
structure State.LinkOk (s : State) : Prop where
  cause : s.link.cause ≠ .none ↔ s.link.state = .fault
  stop : s.link.stop ≠ .none → s.link.state = .running
  keyUp : s.link.keyUp.isSome = true ↔ s.link.state = .keying
  clearWait : s.link.clearWait.isSome = true ↔ s.link.state = .clearWait
  pacing : s.link.pacing ≠ .stopped → s.link.state = .running
  first : s.link.firstPending = true → s.link.state = .running
  cyc : s.link.cyc = true → s.link.state = .running
  onAir : s.engine.onAir.isSome = true → s.link.state = .running
  cycleOpen : s.cycleOpen = true → s.link.state = .running
  clr : s.link.state = .running → s.link.clr = true
  waiting : s.encoder.waiting.isSome = true → s.link.stop ≠ .none

/-- CLEAR runs only in HALTED or FAULT, where it was accepted: with BUSY set no START is taken (R147, R157). -/
abbrev State.clearOk (s : State) : Prop := s.port.task = some .clearing → s.link.state.atRest = true

/-- A frame that opens or fills a cycle: Cycle Start, Record or Withdrawal. -/
def AirFrame.inCycle : AirFrame → Bool
  | .cycleStart _ => true
  | .record _ => true
  | .withdrawal _ => true
  | .cycleEnd _ => false
  | .abort => false

/-- The engine's promise (R70, R75, R76, R85): a Cycle Start, Record or Withdrawal frame is on air only in an open cycle and a Cycle End or
Abort only in BETWEEN; in CARRY the cursor is "start"; in WALK the queue is empty; no key stands twice in the queue; an Abort or Cycle End
that waits for a byte boundary waits behind one byte or more, in BETWEEN with no frame on air (R89, R90). -/
structure State.EngineOk (s : State) : Prop where
  frame : ∀ f, s.engine.onAir = some f → f.inCycle = s.cycleOpen
  carry : s.engine.phase = .carry → s.engine.cursor = none
  walk : s.engine.phase = .walk → s.engine.queue = []
  queue : s.engine.queue.Nodup
  waiting : ∀ w, s.encoder.waiting = some w →
    w.lead ≠ [] ∧ w.frame.inCycle = false ∧ s.engine.onAir = none ∧ s.engine.phase = .between

/-- Slots and entries name each other (R11, R33). -/
def State.bindingOk (s : State) : Prop :=
  (∀ n x, s.slots.at n = some x → ∃ e ∈ s.dir, e.key = x.key ∧ e.body.slot = some n) ∧
    ∀ e ∈ s.dir, ∀ n, e.body.slot = some n → ∃ x, s.slots.at n = some x ∧ x.key = e.key

/-- A session's promise (R21, R22, R32): chains of ceil(length / 32) blocks, a fill of at most the length. -/
def State.sessionsOk (s : State) : Prop :=
  ∀ n x, s.slots.at n = some x →
    x.cls ≤ 3 ∧ x.length ≤ 1024 ∧ x.fill ≤ x.length ∧ x.staging.length = blocksFor x.length ∧
      ∀ c ∈ x.spare, c.length = blocksFor x.length ∧ 0 < x.length

/-- The blocks in the chains of an entry (R19). -/
def Body.blocks (b : Body) : Chain := b.front ++ b.back

/-- The blocks in the chains of a slot (R19). -/
def slotBlocks (o : Option Session) : Chain :=
  match o with
  | some x => x.chains
  | none => []

/-- Every block of every place that holds blocks: the free list, the on-air hold, the entries' chains, the slots' chains (R19). -/
def State.allBlocks (s : State) : List Block :=
  s.pool.free ++ s.pool.hold.getD [] ++ s.dir.flatMap (fun e => e.body.blocks) ++
    slotNumbers.flatMap (fun n => slotBlocks (s.slots.at n))

/-- Each of the 2,048 blocks is in exactly one place (R19). -/
def State.blocksOk (s : State) : Prop := s.allBlocks.Perm (List.range Config.poolBlocks)

/-- The on-air hold's promise (R28): it holds a chain only while the Record frame that uses it is on air, and then one block or more;
while it is empty, the chain of a Record frame on air is its LIVE entry's front chain or has no block. -/
structure State.HoldOk (s : State) : Prop where
  held : ∀ c, s.pool.hold = some c → c ≠ [] ∧ ∃ f, s.engine.onAir = some (.record f) ∧ f.chain = c
  unheld : s.pool.hold = none → ∀ f, s.engine.onAir = some (.record f) → f.chain ≠ [] →
    ∃ e ∈ s.dir, e.key = f.key ∧ e.body.front = f.chain

/-- The promises about the record store together: directory, sessions and their binding, blocks and the hold. -/
structure State.StoreOk (s : State) : Prop where
  directory : s.directoryOk
  sessions : s.sessionsOk
  binding : s.bindingOk
  blocks : s.blocksOk
  hold : s.HoldOk

/-- The carry-over queue's promise (R81, R85): every queued key and the key of the Record or Withdrawal frame on air have a LIVE or
WITHDRAWING entry, and the key on air is not queued. -/
structure State.QueueOk (s : State) : Prop where
  known : ∀ k ∈ s.engine.queue, (s.dir.entryOf k).any (fun e => e.body.onCarousel) = true
  onAir : ∀ k, s.engine.onAir.bind AirFrame.key = some k →
    (s.dir.entryOf k).any (fun e => e.body.onCarousel) = true ∧ k ∉ s.engine.queue

/-- The parameters CONFIGURE can reach keep W in its range (R156). -/
abbrev State.paramsOk (s : State) : Prop := 1 ≤ s.params.withdrawals ∧ s.params.withdrawals ≤ 15

/-! ## The words of the claims -/

/-- The port accepts a command now (R147, R151): RSTN is high and nothing runs. -/
abbrev State.Ready (s : State) : Prop := s.rstn = true ∧ s.busy = false

/-- The command has been accepted and has not completed (R147). -/
abbrev State.Runs (s : State) (c : Command) : Prop := s.port.task = some (.command c)

/-- The port after a transaction with `n` bytes after the command code, before the command acts (R144, R146): the read-out buffer
is emptied, CSN is high, and MISO has carried the port status byte and the buffer's bytes. -/
def State.transacted (s : State) (n : Nat) : Port :=
  { s.port with readOut := [], csn := none, miso := s.shiftOut n }

/-- The port accepts the row wherever it accepts a command: BUSY with the task, REFUSED no, the result slot kept, and nothing
outside the port changes (R147). -/
def Accepted (i : Instr) (n : Nat) (task : PortTask) : Prop :=
  ∀ s : State, s.Ready →
    exec i s = .next { s with port := { s.transacted n with refused := false, task := some task } }

/-- The port after a completion: the result in the slot, BUSY no (R147). -/
def State.answered (s : State) (code : ResultCode) (bytes : List Byte) : Port :=
  { s.port with task := none, result := some { code := code, bytes := bytes } }

/-- The running command completes with this result, and nothing outside the port changes. -/
def State.Answers (s : State) (code : ResultCode) (bytes : List Byte) : Prop :=
  exec .commandCompletion s = .next { s with port := s.answered code bytes }

/-- The rows that are accepted or discarded according to BUSY, UNKNOWN with the code given (R147). -/
def gatedRows (code : Byte) : List (List Byte → Instr) :=
  [.unknown code, .openSession, .write, .commit, .cancel, .retire, .retireGroup, .feed, .read, .query, .notice, .start,
   .configure, .clear]

/-- Every row that is a transaction with a command code (R147, R158). -/
def portRows (code : Byte) : List (List Byte → Instr) := .status :: .result :: .stop :: gatedRows code

/-- The carry-over queue an early end leaves (R88): the abandoned key, the keys that were queued, then the unsent WALK candidates in
key order, none of them twice. -/
def State.earlyQueue (s : State) : List Key :=
  let abandoned := s.engine.onAir.bind AirFrame.key
  abandoned.toList ++ s.engine.queue.filter (fun k => decide (abandoned ≠ some k)) ++
    (s.walkCandidates.map Entry.key).filter (fun k => decide (abandoned ≠ some k ∧ k ∉ s.engine.queue))

/-- The pool with the chain of the on-air hold released (R29). -/
def Pool.heldReleased (p : Pool) : Pool := { p with free := p.free ++ p.hold.getD [], hold := none }

/-- The link right after it enters KEYING (R109, R110, R111, R120): with a key-up delay of 0 the expiry falls at the same instant. -/
def Link.keyed (l : Link) (p : Params) : Link :=
  if p.keyUpDelay ≠ 0 then { l with state := .keying, cause := .none, keyUp := some p.keyUpDelay }
  else if l.clr = true then
    { l with
      state := .running, cause := .none, stop := .none, keyUp := none, clearWait := none, pacing := .stopped, firstPending := true }
  else { l with state := .clearWait, cause := .none, keyUp := none, clearWait := some (p.clearWaitLimit * 10) }

/-- The parameter table of CONFIGURE (R156): code, lowest and highest value, and the parameter that takes the value. -/
def configureTable : List (Byte × Nat × Nat × (Params → Nat → Params)) :=
  [(0x01#8, 0, 9, fun p v => { p with rate := v }),
   (0x02#8, 64, 65535, fun p v => { p with budget := v }),
   (0x03#8, 0, 65535, fun p v => { p with period := v }),
   (0x04#8, 1, 15, fun p v => { p with withdrawals := v }),
   (0x05#8, 1, 15, fun p v => { p with confirmLimit := v }),
   (0x06#8, 0, 15, fun p v => { p with bareLimit := v }),
   (0x07#8, 0, 255, fun p v => { p with keyUpDelay := v }),
   (0x08#8, 1, 255, fun p v => { p with clearWaitLimit := v }),
   (0x09#8, 0, 15, fun p v => { p with gap := v }),
   (0x0A#8, 0, 1, fun p v => { p with spentNotice := v == 1 }),
   (0x0B#8, 0, 1, fun p v => { p with cycleAttention := v == 1 })]

end Sys2Proof.Machine
end

