-- ==== Sys2Proof/WellFormed.lean ====
section
/-! DEFINITION. The checks on a command: what the table's rows do not leave to the device. -/

namespace Sys2Proof

/-- The command codes of the command table (R158). -/
def commandCodes : List Byte :=
  [0x01#8, 0x02#8, 0x03#8, 0x10#8, 0x11#8, 0x12#8, 0x13#8, 0x18#8, 0x19#8, 0x20#8, 0x28#8, 0x29#8, 0x2A#8,
   0x30#8, 0x31#8, 0x3F#8]

/-- The row UNKNOWN stands for a code that is not in the command table (R149); every other row's form is whatever
the host sends, and short or long frames are the device's to judge (R144, R149). -/
def Instr.wellFormed : Instr → Bool
  | .powerOnReset => true
  | .powerOnInitialisation => true
  | .initialisationEnd => true
  | .emptyTransaction _ => true
  | .unknown c _ => !commandCodes.contains c
  | .status _ => true
  | .result _ => true
  | .stop _ => true
  | .openSession _ => true
  | .write _ => true
  | .commit _ => true
  | .cancel _ => true
  | .retire _ => true
  | .retireGroup _ => true
  | .retireGroupVisit => true
  | .feed _ => true
  | .read _ => true
  | .query _ => true
  | .notice _ => true
  | .start _ => true
  | .configure _ => true
  | .clear _ => true
  | .clearCompletion => true
  | .keyUpTimerExpiry => true
  | .clrAsserted => true
  | .clearWaitTimerExpiry => true
  | .lossOfClr => true
  | .pacingTimerExpiry => true
  | .cycleStart => true
  | .cycleStartFrameEnd => true
  | .frameChoice => true
  | .recordFrameEnd => true
  | .withdrawalFrameEnd => true
  | .cycleEndFrameEnd => true
  | .abortFrameEnd => true
  | .commandCompletion => true
  | .clrDeassertion => true
  | .cycPulseEnd => true

end Sys2Proof
end

