-- ==== Sys2Proof/Certificates/Slice0/Obligations.lean ====
section
/-! DEFINITION. Statements about the CK-240 for the provers. -/

section

open Sys2Proof Sys2Proof.Machine

/-! ## The machine -/

/-- Step takes the front of the queue and runs it on the state with the queue's rest. -/
def Obligations.StepTakesTheFrontOfTheQueue : Prop :=
  ∀ (s : State) (c : Instr) (rest : List Instr), s.pending = c :: rest → step s = exec c { s with pending := rest }

/-- KEY is on and TXC runs in KEYING, CLEAR_WAIT and RUNNING alone; else the line is still; with no frame a keyed line carries 0xAA, gap
bytes in an open cycle and no more, fill until a cycle start is due (R108, R113, R123, R124). On an empty queue one byte-time of the link
passes, only the line moves, and CYC falls with the marker's byte-time (R129): nothing on a still line; one gap or fill byte with no frame
on air, none where a choice or a cycle start is due; one byte before a frame that waits for the byte boundary, and with the last of them
the frame starts; one byte of the frame on air. That a step on an empty queue is a byte-time is the model's choice, log 6; that the line
waits at the instant of a frame's end, a choice or a cycle start for the row of that event is log 7. -/
def Obligations.EmptyQueueIsOneByteTime : Prop :=
  (∀ l : LinkState, l.keyed = true ↔ l = .keying ∨ l = .clearWait ∨ l = .running) ∧
  (∀ s : State, s.keyOutput = s.link.state.keyed ∧ s.txcRuns = s.link.state.keyed ∧
    (s.link.state.keyed = false → s.txdByte = none) ∧
    (s.link.state.keyed = true → s.engine.onAir = none → s.encoder.waiting = none → s.txdByte =
      if s.link.state = .running ∧ s.encoder.gap = 0 ∧ (s.engine.phase ≠ .between ∨
        s.link.stop = .none ∧ (s.link.firstPending = true ∨ s.link.pacing = .expired)) then none else some 0xAA#8)) ∧
  ∀ s : State, s.pending = [] →
    (s.link.state.keyed = false → step s = .next s) ∧
    (s.link.state.keyed = true → s.engine.onAir = none → s.encoder.waiting = none →
      step s = .next { s with
        line := s.txdByte.toList, encoder := { s.encoder with gap := s.encoder.gap - 1 }
        link := { s.link with cyc := false } }) ∧
    (∀ b c more f, s.link.state.keyed = true → s.engine.onAir = none →
      s.encoder.waiting = some { lead := b :: c :: more, frame := f } →
      step s = .next { s with
        line := [b], encoder := { Encoder.idle with waiting := some { lead := c :: more, frame := f } }
        link := { s.link with cyc := false } }) ∧
    (∀ b f, s.link.state.keyed = true → s.engine.onAir = none → s.encoder.waiting = some { lead := [b], frame := f } →
      step s = .next { s with
        line := [b], engine := { s.engine with onAir := some f }
        encoder := { waiting := none, place := 0, pairFirst := false, crc := 0xFFFF#16, gap := 0 }
        link := { s.link with cyc := false } }) ∧
    ∀ f, s.link.state.keyed = true → s.engine.onAir = some f →
      step s = .next { s with
        line := if s.encoder.place < f.byteLength then s.txdByte.toList else []
        encoder := s.encoder.advance s.pool.mem f
        link := { s.link with cyc := false } }

/-- Every row answers a next state from every state, and leaves the queue as it is: nothing stops the device. That a row whose event cannot
occur in the state still answers one is the model's choice, log 3; so is
that the reset rows leave the queue, log 11, and that UNKNOWN with a code of the command table is that command's row, log 18. -/
def Obligations.EveryRowAnswersAndLeavesTheQueue : Prop :=
  ∀ (i : Instr) (s : State), ∃ t, exec i s = .next t ∧ t.pending = s.pending

/-! ## Reset -/

/-- POWER_ON_RESET (R151): no entry, no frame on air, no result and no read-out bytes are left, the line is still, KEY and CYC are low,
ATTN is released, and the port ignores every transaction. That the CLR pin's level stays is the model's choice of log 9, that the pool's
bytes stay is log 10, and that the blocks stand at these values while RSTN is low already is log 11. -/
def Obligations.PowerOnResetStillsTheDevice : Prop :=
  ∀ s : State, ∃ t, exec .powerOnReset s = .next t ∧
    t.rstn = false ∧ t.dir = [] ∧ t.engine.onAir = none ∧ t.port.result = none ∧ t.port.readOut = [] ∧
    t.keyOutput = false ∧ t.txcRuns = false ∧ t.txdByte = none ∧ t.link.cyc = false ∧ t.attn = false ∧
    t.pool.mem = s.pool.mem ∧ t.link.clr = s.link.clr ∧
    (∀ code args, ∀ row ∈ portRows code, exec (row args) t = .next t) ∧
    ∀ edge, exec (.emptyTransaction edge) t = .next t

/-- POWER_ON_INITIALISATION: every block takes the values its chapter gives after power-on reset, and BUSY is set; INITIALISATION_END: BUSY
becomes no, the result slot and the read-out buffer are empty, REFUSED and the rest stay (R18, R31, R53, R69, R107, R143, R151, R156). The
encoder holds no frame, on the line or waiting. That the CLR pin's level stays, that CSN counts as high and that MISO has shown nothing is
the model's choice of log 9, that the encoder's place and accumulator stand at a frame's start values and that the line has carried nothing
is log 14, that the pool's bytes stay is log 10, and that the row may be taken with RSTN high is log 11. The last clause says what
State.reset is: it rests on logs 8, 9, 10 and 21. -/
def Obligations.InitialisationGivesThePowerOnValues : Prop :=
  (∀ s : State, ∃ t, exec .powerOnInitialisation s = .next t ∧
    t.rstn = true ∧ t.dir = [] ∧ t.pool = { free := List.range 2048, hold := none, mem := s.pool.mem } ∧
    (∀ n, t.slots.at n = none) ∧
    t.engine = { cycle := 0#16, generation := 0#16, phase := .between, budget := 0, firstSent := false, frames := 0#16,
                 cursor := none, queue := [], served := [], onAir := none, bare := 0, truncPrev := false } ∧
    t.link = { state := .halted, cause := .none, stop := .none, keyUp := none, clearWait := none, pacing := .stopped,
               firstPending := false, cyc := false, clr := s.link.clr } ∧
    t.notice = { conds := Conditions.none, cursor := 0x0000#16 } ∧
    t.params = { rate := 3, budget := 4096, period := 1000, withdrawals := 3, confirmLimit := 10, bareLimit := 4,
                 keyUpDelay := 20, clearWaitLimit := 50, gap := 2, spentNotice := true, cycleAttention := false } ∧
    t.encoder = { waiting := none, place := 0, pairFirst := false, crc := 0xFFFF#16, gap := 0 } ∧ t.line = [] ∧
    t.port = { task := some .initialisation, result := none, refused := false, readOut := [], csn := none, miso := [] } ∧
    t.busy = true ∧ t.keyOutput = false ∧ t.txdByte = none ∧ t.attn = false) ∧
  (∀ s : State, s.rstn = true → s.port.task = some .initialisation →
    exec .initialisationEnd s = .next { s with port := { s.port with task := none, result := none, readOut := [] } }) ∧
  ∀ s : State, s.pool.mem = [] → s.link.clr = false → s.freeCount = 0 → s.pending = [] →
    exec .powerOnInitialisation s = .next State.reset

/-! ## The command port -/

/-- What a transaction shows the host (R144, R145, R146): one without a whole byte samples the port status byte at its fall and empties the
read-out buffer at its rise; in every other, MISO carries the port status byte sampled at the fall, then the read-out buffer, then 0x00.
That EMPTY_TRANSACTION is cut into its two edges is the model's choice, log 2; so is that the buffer is the one that stands at the rise,
which shows only where initialisation ends within the transaction, log 26. -/
def Obligations.TransactionsShowStatusThenReadOut : Prop :=
  (∀ s : State, s.rstn = true →
    (s.port.csn = none →
      exec (.emptyTransaction .fall) s = .next { s with port := { s.port with csn := some s.statusByte } }) ∧
    exec (.emptyTransaction .rise) s =
      .next { s with port := { s.port with readOut := [], csn := none, miso := [s.port.csn.getD s.statusByte] } }) ∧
  ∀ (s : State) (code : Byte) (args : List Byte), ∀ row ∈ portRows code, s.rstn = true →
    ∃ t, exec (row args) s = .next t ∧ t.port.csn = none ∧ t.port.miso.length = args.length + 1 ∧
      t.port.miso[0]? = some (s.port.csn.getD s.statusByte) ∧
      ∀ i, i < args.length → t.port.miso[i + 1]? = some ((s.port.readOut[i]?).getD 0x00#8)

/-- The port status byte and what ATTN, the output and the bit, means (R139, R145, R158). -/
def Obligations.PortStatusByteLayout : Prop :=
  ∀ s : State,
    s.statusByte.getLsbD 7 = s.port.task.isSome ∧ s.statusByte.getLsbD 6 = s.port.result.isSome ∧
    s.statusByte.getLsbD 5 = s.port.refused ∧
    (s.statusByte.getLsbD 4 = true ↔
      (∃ e ∈ s.dir, e.flags ≠ Flags.none) ∨ s.notice.conds ≠ Conditions.none) ∧
    s.attn = s.statusByte.getLsbD 4 ∧
    s.statusByte.getLsbD 3 = s.engine.onAir.isSome ∧
    (s.statusByte.extractLsb' 0 3).toNat =
      match s.link.state with
      | .halted => 0
      | .keying => 1
      | .clearWait => 2
      | .running => 3
      | .dormant => 4
      | .fault => 5

/-- While BUSY every row but STATUS, RESULT and STOP is discarded, UNKNOWN with any code outside the command table among them: REFUSED, and
nothing else outside the transaction itself (R147). -/
def Obligations.BusyPortDiscards : Prop :=
  ∀ (s : State) (code : Byte) (args : List Byte), commandCodes.contains code = false → ∀ row ∈ gatedRows code,
    s.rstn = true → s.busy = true →
    exec (row args) s = .next { s with port := { s.transacted args.length with refused := true } }

/-- RESULT, in each state of the port: PENDING while BUSY, the result once, then NONE; and in both orders with a completion of any
kind: a command's, the walk's last step, CLEAR's. With the RESULT first the new result waits in the slot (R148). Then the number of every
result code (R158). -/
def Obligations.ResultIsReadOnce : Prop :=
  (∀ (s : State) (args : List Byte), s.rstn = true →
    (s.busy = true →
      exec (.result args) s =
        .next { s with port := { s.transacted args.length with readOut := [0x01#8, 0x00#8] } }) ∧
    (∀ r, s.busy = false → s.port.result = some r →
      exec (.result args) s =
        .next { s with port := { s.transacted args.length with
          readOut := r.code.byte :: BitVec.ofNat 8 r.bytes.length :: r.bytes, result := none } }) ∧
    (s.busy = false → s.port.result = none →
      exec (.result args) s =
        .next { s with port := { s.transacted args.length with readOut := [0x02#8, 0x00#8] } }) ∧
    ∀ i ∈ [Instr.commandCompletion, .retireGroupVisit, .clearCompletion], ∀ u : State,
      s.busy = true → exec i s = .next u → u.busy = false →
        (∃ r, u.port.result = some r ∧
          exec (.result args) u = .next { u with port := { u.transacted args.length with
            readOut := r.code.byte :: BitVec.ofNat 8 r.bytes.length :: r.bytes, result := none } }) ∧
        ∃ v t, exec (.result args) s = .next v ∧ v.port.readOut = [0x01#8, 0x00#8] ∧
          exec i v = .next t ∧ t.busy = false ∧ t.port.result.isSome = true ∧ t.port.result = u.port.result) ∧
  ∀ p ∈ [(ResultCode.ok, 0x00#8), (.pending, 0x01#8), (.none, 0x02#8), (.badKey, 0x10#8), (.noKey, 0x11#8),
      (.badLength, 0x12#8), (.badClass, 0x13#8), (.badSlot, 0x14#8), (.badParam, 0x15#8), (.keyOpen, 0x20#8),
      (.keySpent, 0x21#8), (.noSlot, 0x22#8), (.tableFull, 0x23#8), (.noSpace, 0x24#8), (.sequence, 0x30#8),
      (.overrun, 0x31#8), (.incomplete, 0x32#8), (.state, 0x33#8), (.kind, 0x34#8), (.short, 0x40#8), (.unknown, 0x41#8)],
    p.1.byte = p.2

/-- STATUS, whatever BUSY stands at (R138, R152): the read-out buffer takes the link state, fault cause, stop point, cycle number,
generation, the four counts, the open slot set and the device conditions, in the codes of the port's layouts; the device conditions are
emptied; nothing else changes. The LIVE count counts the entries in state LIVE (R7), and a two-byte field stands high byte first. That the
unnamed bits of the slot set and of the conditions are 0 is the model's choice, log 23. -/
def Obligations.StatusReportsAndEmptiesTheConditions : Prop :=
  ∀ (s : State) (args : List Byte), s.rstn = true → ∃ o c : Byte,
    exec (.status args) s = .next { s with
      port := { s.transacted args.length with
        readOut := [s.link.state.byte, s.link.cause.byte, s.link.stop.byte] ++ bytes16 s.engine.cycle ++
          bytes16 s.engine.generation ++ countBytes s.dir.length ++
          countBytes (s.dir.filter (fun e => e.isLive)).length ++ countBytes s.pool.free.length ++
          countBytes s.engine.queue.length ++ [o, c] }
      notice := { s.notice with conds := Conditions.none } } ∧
    (∀ n : SlotNo, o.getLsbD n.val = (s.slots.at n).isSome) ∧ (∀ i, 4 ≤ i → o.getLsbD i = false) ∧
    c.getLsbD 0 = s.notice.conds.linkFault ∧ c.getLsbD 1 = s.notice.conds.haltReached ∧
    c.getLsbD 2 = s.notice.conds.dormantEntered ∧ c.getLsbD 3 = s.notice.conds.cycleStart ∧
    (∀ i, 4 ≤ i → c.getLsbD i = false) ∧
    (∀ p ∈ [(LinkState.halted, 0#8), (.keying, 1#8), (.clearWait, 2#8), (.running, 3#8), (.dormant, 4#8), (.fault, 5#8)],
      p.1.byte = p.2) ∧
    (∀ p ∈ [(FaultCause.none, 0#8), (.notClear, 1#8), (.linkLost, 2#8)], p.1.byte = p.2) ∧
    (∀ p ∈ [(StopPoint.none, 0#8), (.immediate, 1#8), (.frame, 2#8), (.cycle, 3#8)], p.1.byte = p.2) ∧
    (∀ e : Entry, e.isLive = true ↔ ∃ v, e.body = .live v) ∧
    (∀ w : Word16, bytes16 w = [w.extractLsb' 8 8, w.extractLsb' 0 8]) ∧
    ∀ n : Nat, countBytes n = [BitVec.ofNat 8 (n / 256), BitVec.ofNat 8 n]

/-- Byte 0 of a frame names its command: each code of the command table its row, every other code UNKNOWN (R144, R149, R158). A code outside
the command table, and a known command with too few bytes, are accepted and complete with UNKNOWN and SHORT, changing nothing outside
the port (R149). That the row UNKNOWN with a code of the table acts as that command's row is the model's choice, log 18. -/
def Obligations.ShortAndUnknownFrames : Prop :=
  (∀ args, ∀ p ∈ [(0x01#8, Instr.status args), (0x02#8, .result args), (0x03#8, .stop args), (0x10#8, .openSession args),
      (0x11#8, .write args), (0x12#8, .commit args), (0x13#8, .cancel args), (0x18#8, .retire args),
      (0x19#8, .retireGroup args), (0x20#8, .feed args), (0x28#8, .read args), (0x29#8, .query args),
      (0x2A#8, .notice args), (0x30#8, .start args), (0x31#8, .configure args), (0x3F#8, .clear args)],
    instrOfFrame (p.1 :: args) = p.2 ∧ commandCodes.contains p.1 = true ∧
      ∀ s : State, exec (.unknown p.1 args) s = exec p.2 s) ∧
  (∀ code args, commandCodes.contains code = false → instrOfFrame (code :: args) = .unknown code args) ∧
  instrOfFrame [] = .emptyTransaction .rise ∧
  (∀ code args, commandCodes.contains code = false → Accepted (.unknown code args) args.length (.command .unknown)) ∧
  (∀ args, args.length < 6 → Accepted (.openSession args) args.length (.command .short)) ∧
  (∀ args, args.length < 4 → Accepted (.write args) args.length (.command .short)) ∧
  (∀ n f1 f0 c data, data.length < c.toNat →
    Accepted (.write (n :: f1 :: f0 :: c :: data)) (4 + data.length) (.command .short)) ∧
  (∀ args, args.length < 2 → Accepted (.commit args) args.length (.command .short)) ∧
  (∀ args, args.length < 1 → Accepted (.cancel args) args.length (.command .short)) ∧
  (∀ args, args.length < 2 → Accepted (.retire args) args.length (.command .short)) ∧
  (∀ args, args.length < 1 → Accepted (.retireGroup args) args.length (.command .short)) ∧
  (∀ args, args.length < 5 → Accepted (.feed args) args.length (.command .short)) ∧
  (∀ k1 k0 f1 f0 c data, data.length < c.toNat →
    Accepted (.feed (k1 :: k0 :: f1 :: f0 :: c :: data)) (5 + data.length) (.command .short)) ∧
  (∀ args, args.length < 5 → Accepted (.read args) args.length (.command .short)) ∧
  (∀ args, args.length < 2 → Accepted (.query args) args.length (.command .short)) ∧
  (∀ args, args.length < 3 → Accepted (.configure args) args.length (.command .short)) ∧
  ∀ v : State, (v.Runs .short → v.Answers .short []) ∧ (v.Runs .unknown → v.Answers .unknown [])

/-! ## Change sessions -/

/-- OPEN that passes its checks (R11, R12, R22, R38): the lowest-numbered FREE slot takes the key, kind, class and length with fill 0, and
its chains from the head of the free list, staging before spare; a key with no entry gains a STAGED one, a LIVE or WITHDRAWING entry gains
the slot field and keeps the rest; no other entry changes; the answer is the slot number. What it is for a slot to hold a key and for an
entry to be SPENT comes first. -/
def Obligations.OpenTakesTheLowestFreeSlot : Prop :=
  (∀ (x : Slots) (k : Key), x.holds k = true ↔ ∃ n y, x.at n = some y ∧ y.key = k) ∧
  (∀ e : Entry, e.isSpent = true ↔ ∃ l, e.body = .spent l) ∧
  (∀ (k1 k0 o c l1 l0 : Byte) (more : List Byte),
    Accepted (.openSession (k1 :: k0 :: o :: c :: l1 :: l0 :: more)) (6 + more.length)
      (.command (.openSession (k1 ++ k0) (if o.getLsbD 0 then .feed else .stored) c.toNat
        (l1.toNat * 256 + l0.toNat)))) ∧
  ∀ (v : State) (key : Key) (kind : Kind) (cls length : Nat) (n : SlotNo),
    let b := (length + 31) / 32
    let taken := if kind = .feed then 2 * b else b
    v.Runs (.openSession key kind cls length) →
    key ≠ 0x0000#16 → key ≠ 0xFFFF#16 → length ≤ 1024 → (kind = .feed → 0 < length) → cls ≤ 3 →
    v.slots.holds key = false → (v.dir.entryOf key).any Entry.isSpent = false →
    v.slots.at n = none → (∀ m, m < n → v.slots.at m ≠ none) →
    (v.dir.entryOf key = none → v.dir.length < 256) → taken ≤ v.pool.free.length →
    ∃ d, exec .commandCompletion v = .next { v with
        dir := d
        pool := { v.pool with free := v.pool.free.drop taken }
        slots := v.slots.set n (some {
          key := key, cls := cls, length := length, staging := v.pool.free.take b
          spare := if kind = .feed then some ((v.pool.free.drop b).take b) else none, fill := 0 })
        port := v.answered .ok [BitVec.ofNat 8 n.val] } ∧
      (v.dir.entryOf key = none →
        d.entryOf key = some { key := key, sent := false, flags := Flags.none, body := .staged n } ∧
        d.length = v.dir.length + 1) ∧
      (∀ e w, v.dir.entryOf key = some e → e.body = .live w →
        d.entryOf key = some { e with body := .live { w with slot := some n } } ∧
        d.map Entry.key = v.dir.map Entry.key) ∧
      (∀ e l r o, v.dir.entryOf key = some e → e.body = .withdrawing l r o →
        d.entryOf key = some { e with body := .withdrawing l r (some n) } ∧
        d.map Entry.key = v.dir.map Entry.key) ∧
      ∀ k, k ≠ key → d.entryOf k = v.dir.entryOf k

/-- OPEN's eight checks in their order; the first that fails gives the result and nothing changes (R34 to R37). -/
def Obligations.OpenChecksInOrder : Prop :=
  ∀ (v : State) (key : Key) (kind : Kind) (cls length : Nat) (code : ResultCode),
    v.Runs (.openSession key kind cls length) →
    (if key = 0x0000#16 ∨ key = 0xFFFF#16 then some ResultCode.badKey
     else if 1024 < length ∨ (kind = .feed ∧ length = 0) then some .badLength
     else if 3 < cls then some .badClass
     else if v.slots.holds key = true then some .keyOpen
     else if (v.dir.entryOf key).any Entry.isSpent = true then some .keySpent
     else if ∀ n, v.slots.at n ≠ none then some .noSlot
     else if v.dir.entryOf key = none ∧ 256 ≤ v.dir.length then some .tableFull
     else if v.pool.free.length < (if kind = .feed then 2 else 1) * ((length + 31) / 32) then some .noSpace
     else none) = some code →
    v.Answers code []

/-- WRITE that passes its checks (R21, R41): the bytes lie in the staging chain, every other byte of the pool reads as before, and the fill
advances. -/
def Obligations.WritePlacesItsBytes : Prop :=
  (∀ (n f1 f0 c : Byte) (data more : List Byte), data.length = c.toNat →
    Accepted (.write (n :: f1 :: f0 :: c :: (data ++ more))) (4 + data.length + more.length)
      (.command (.write n.toNat (f1.toNat * 256 + f0.toNat) data))) ∧
  ∀ (v : State) (n : SlotNo) (offset : Nat) (data : List Byte) (x : Session),
    v.Runs (.write n.val offset data) → 1 ≤ data.length → data.length ≤ 64 → v.slots.at n = some x →
    offset = x.fill → offset + data.length ≤ x.length →
    ∃ m, exec .commandCompletion v = .next { v with
        pool := { v.pool with mem := m }
        slots := v.slots.set n (some { x with fill := offset + data.length })
        port := v.answered .ok
          (countBytes (offset + data.length) ++ [if offset + data.length = x.length then 2#8 else 1#8]) } ∧
      (∀ a, (∀ j b, j < data.length → x.staging[(offset + j) / 32]? = some b → a ≠ 32 * b + (offset + j) % 32) →
        m.read a = v.pool.mem.read a) ∧
      (v.pool.mem.wf → x.staging.Nodup → ∀ j y b, data[j]? = some y → x.staging[(offset + j) / 32]? = some b →
        m.read (32 * b + (offset + j) % 32) = y)

/-- WRITE's checks in their order (R40). A refused WRITE leaves the session as it was, so a following WRITE at the right offset is taken
as if it had not been sent. -/
def Obligations.WriteChecksInOrder : Prop :=
  (∀ n f1 f0 c data, data.length < c.toNat →
    Accepted (.write (n :: f1 :: f0 :: c :: data)) (4 + data.length) (.command .short)) ∧
  (∀ v : State, v.Runs .short → v.Answers .short []) ∧
  ∀ (v : State) (slot offset : Nat) (data : List Byte), v.Runs (.write slot offset data) →
    (3 < slot → v.Answers .badSlot []) ∧
    ∀ n : SlotNo, n.val = slot →
      (data.length = 0 ∨ 64 < data.length → v.Answers .badLength []) ∧
      (1 ≤ data.length → data.length ≤ 64 →
        (v.slots.at n = none → v.Answers .state []) ∧
        ∀ x, v.slots.at n = some x →
          (offset ≠ x.fill → v.Answers .sequence []) ∧
          (offset = x.fill → x.length < offset + data.length → v.Answers .overrun []) ∧
          (x.fill = x.length → offset ≠ x.length → v.Answers .sequence []) ∧
          (x.fill = x.length → offset = x.length → v.Answers .overrun []))

/-- COMMIT of a FULL slot (R13, R43, R45, R46, R49, R120): the entry becomes LIVE with the slot's content, the next version, a
confirmation at age 0 if asked for, SUPERSEDED if one was pending, and FEED_DUE kept by a FEED version alone; the slot is FREE, the
generation advances, a DORMANT link is keyed, no other entry changes, and the answer is the key and version. The pool's part is said of
displaceBody by CommitAndRetireMoveTheChains, the version by CommitVersion. That with a key-up delay of 0 and CLR asserted the line may
carry the Cycle Start frame with no idle fill before it is the model's choice, log 25. -/
def Obligations.CommitInstallsTheVersion : Prop :=
  (∀ b : Body, b.confirm = match b with
    | .live w => w.confirm
    | _ => none) ∧
  (∀ (n o : Byte) (more : List Byte),
    Accepted (.commit (n :: o :: more)) (2 + more.length) (.command (.commit n.toNat (o.getLsbD 0)))) ∧
  ∀ (v : State) (n : SlotNo) (confirm : Bool) (x : Session) (e : Entry),
    v.Runs (.commit n.val confirm) → v.slots.at n = some x → x.fill = x.length →
    v.dir.entryOf x.key = some e →
    ∃ d, exec .commandCompletion v = .next { v with
        dir := d
        pool := v.pool.displaceBody v.engine.onAir x.key e.body
        slots := v.slots.set n none
        engine := { v.engine with generation := v.engine.generation + 1#16 }
        encoder := if v.link.state = .dormant then Encoder.idle else v.encoder
        link := if v.link.state = .dormant then v.link.keyed v.params else v.link
        port := v.answered .ok (bytes16 x.key ++ [e.body.nextVersion]) } ∧
      d.entryOf x.key = some { e with
        flags := { e.flags with
          superseded := e.flags.superseded || e.body.confirm.isSome
          feedDue := e.flags.feedDue && x.spare.isSome }
        body := .live {
          cls := x.cls, version := e.body.nextVersion, length := x.length, front := x.staging
          feed := x.spare.map (fun c => { back := c, fill := 0, fresh := false })
          confirm := if confirm then some { age := 0, overdueRaised := false } else none
          slot := none } } ∧
      d.map Entry.key = v.dir.map Entry.key ∧ ∀ k, k ≠ x.key → d.entryOf k = v.dir.entryOf k

/-- The version a COMMIT gives: 1 on a STAGED entry, else one more than the last, modulo 256 (R44); it always differs from the entry's
version before. -/
def Obligations.CommitVersion : Prop :=
  ∀ (v : State) (n : SlotNo) (confirm : Bool) (x : Session) (e : Entry),
    v.Runs (.commit n.val confirm) → v.slots.at n = some x → x.fill = x.length →
    v.dir.entryOf x.key = some e →
    ∃ t e' w, exec .commandCompletion v = .next t ∧ t.dir.entryOf x.key = some e' ∧ e'.body = .live w ∧
      (∀ m, e.body = .staged m → w.version = 1#8) ∧
      (∀ u, e.body = .live u → w.version.toNat = (u.version.toNat + 1) % 256 ∧ w.version ≠ u.version) ∧
      ∀ l r o, e.body = .withdrawing l r o →
        w.version.toNat = (l.version.toNat + 1) % 256 ∧ w.version ≠ l.version

/-- Where the chains of an entry go at COMMIT, RETIRE and a RETIRE GROUP visit (R24, R26, R27, R28): the front chain to the on-air hold when
it is the chain of the Record frame on air for the key and has a block, else to the free list's tail; then the back chain to the free list's
tail. Only a LIVE entry has any. That the front chain comes before the back chain also while a Record frame for the key uses a chain already
in the hold, or has no block, is the model's choice, log 22. -/
def Obligations.CommitAndRetireMoveTheChains : Prop :=
  ∀ (p : Pool) (onAir : Option AirFrame) (key : Key) (b : Body),
    ((∀ v, b ≠ .live v) → p.displaceBody onAir key b = p) ∧
    ∀ v, b = .live v → p.displaceBody onAir key b = p.displace onAir key v ∧
      let back := match v.feed with
        | some f => f.back
        | none => []
      (∀ f, onAir = some (.record f) → f.key = key → f.chain = v.front → v.front ≠ [] → p.hold = none →
        p.displace onAir key v = { p with free := p.free ++ back, hold := some v.front }) ∧
      ((∀ f, onAir = some (.record f) → f.key = key → f.chain = v.front → v.front = []) →
        p.displace onAir key v = { p with free := p.free ++ v.front ++ back })

/-- COMMIT's checks in their order, and a COMMIT of a FULL slot passes them (R42). -/
def Obligations.CommitChecksInOrder : Prop :=
  ∀ (v : State) (slot : Nat) (confirm : Bool), v.Runs (.commit slot confirm) →
    (3 < slot → v.Answers .badSlot []) ∧
    ∀ n : SlotNo, n.val = slot →
      (v.slots.at n = none → v.Answers .state []) ∧
      ∀ x, v.slots.at n = some x →
        (x.fill ≠ x.length → v.Answers .incomplete []) ∧
        (x.fill = x.length → v.bindingOk →
          ∃ t b, exec .commandCompletion v = .next t ∧ t.port.result = some { code := .ok, bytes := b })

/-- CANCEL (R14, R25, R50): BAD_SLOT over 3, STATE on a FREE slot; else the staging and then the spare chain go to the free list's tail,
the slot is FREE, a STAGED entry is removed, a LIVE or WITHDRAWING one loses its slot field alone, no other entry changes, and the
answer is the key and whether an entry was removed. -/
def Obligations.CancelEndsTheSession : Prop :=
  (∀ e : Entry, e.isStaged = true ↔ ∃ n, e.body = .staged n) ∧
  (∀ (n : Byte) (more : List Byte), Accepted (.cancel (n :: more)) (1 + more.length) (.command (.cancel n.toNat))) ∧
  ∀ (v : State) (slot : Nat), v.Runs (.cancel slot) →
    (3 < slot → v.Answers .badSlot []) ∧
    ∀ n : SlotNo, n.val = slot →
      (v.slots.at n = none → v.Answers .state []) ∧
      ∀ x e, v.slots.at n = some x → v.dir.entryOf x.key = some e →
        ∃ d, exec .commandCompletion v = .next { v with
            dir := d
            pool := { v.pool with free := v.pool.free ++ x.staging ++ x.spare.getD [] }
            slots := v.slots.set n none
            port := v.answered .ok (bytes16 x.key ++ [if e.isStaged then 1#8 else 0#8]) } ∧
          (e.isStaged = true → d.entryOf x.key = none) ∧
          (∀ w, e.body = .live w → d.entryOf x.key = some { e with body := .live { w with slot := none } }) ∧
          (∀ l r o, e.body = .withdrawing l r o →
            d.entryOf x.key = some { e with body := .withdrawing l r none }) ∧
          ∀ k, k ≠ x.key → d.entryOf k = v.dir.entryOf k

/-! ## Retirement -/

/-- RETIRE that passes its checks (R15, R27, R55): the LIVE entry becomes WITHDRAWING with the count W, keeping kind, class, version,
length and slot; SUPERSEDED is added if a confirmation was pending and FEED_DUE is cleared; the generation advances; no other entry
changes; the answer is key, version and count. Where the chains go is said of displace by CommitAndRetireMoveTheChains. -/
def Obligations.RetireMakesTheEntryWithdrawing : Prop :=
  (∀ (k1 k0 : Byte) (more : List Byte),
    Accepted (.retire (k1 :: k0 :: more)) (2 + more.length) (.command (.retire (k1 ++ k0)))) ∧
  ∀ (v : State) (key : Key) (e : Entry) (w : Live),
    v.Runs (.retire key) → key ≠ 0x0000#16 → key ≠ 0xFFFF#16 → v.dir.entryOf key = some e → e.body = .live w →
    ∃ d, exec .commandCompletion v = .next { v with
        dir := d
        pool := v.pool.displace v.engine.onAir key w
        engine := { v.engine with generation := v.engine.generation + 1#16 }
        port := v.answered .ok (bytes16 key ++ [w.version, BitVec.ofNat 8 v.params.withdrawals]) } ∧
      d.entryOf key = some { e with
        flags := { e.flags with superseded := e.flags.superseded || w.confirm.isSome, feedDue := false }
        body := .withdrawing { kind := w.kind, cls := w.cls, version := w.version, length := w.length }
          v.params.withdrawals w.slot } ∧
      d.map Entry.key = v.dir.map Entry.key ∧ ∀ k, k ≠ key → d.entryOf k = v.dir.entryOf k

/-- RETIRE's checks in their order; a refused RETIRE changes nothing, and an open slot or the link state does not refuse one (R54). -/
def Obligations.RetireChecksInOrder : Prop :=
  ∀ (v : State) (key : Key), v.Runs (.retire key) →
    (key = 0x0000#16 ∨ key = 0xFFFF#16 → v.Answers .badKey []) ∧
    (key ≠ 0x0000#16 → key ≠ 0xFFFF#16 →
      (v.dir.entryOf key = none → v.Answers .noKey []) ∧
      ∀ e, v.dir.entryOf key = some e →
        ((∀ w, e.body ≠ .live w) → v.Answers .state []) ∧
        ∀ w, e.body = .live w → ∃ (t : State) (bytes : List Byte), exec .commandCompletion v = .next t ∧
          t.port.result = some { code := .ok, bytes := bytes })

/-- RETIRE GROUP (R58, R59). At its acceptance a group over 15 completes at once with BAD_KEY and changes nothing outside the port; any
other starts the walk with no key visited. Each step of the walk visits the group's smallest key above the last visited one: a LIVE entry
is retired as RETIRE retires it, any other is skipped; with no entry left the command completes with the two counts. -/
def Obligations.RetireGroupWalksTheGroup : Prop :=
  (∀ (s : State) (g : Byte) (more : List Byte), s.Ready →
    (15 < g.toNat → exec (.retireGroup (g :: more)) s = .next { s with port := { s.transacted (1 + more.length) with
      refused := false, task := none, result := some { code := .badKey, bytes := [] } } }) ∧
    (g.toNat ≤ 15 → exec (.retireGroup (g :: more)) s = .next { s with port := { s.transacted (1 + more.length) with
      refused := false, task := some (.groupWalk g.toNat none 0 0) } })) ∧
  ∀ (s : State) (g retired skipped : Nat) (last : Option Key), s.directoryOk →
    s.port.task = some (.groupWalk g last retired skipped) →
    let left := fun (e : Entry) => e.key.toNat / 4096 = g ∧ ∀ k, last = some k → k < e.key
    ((∀ e ∈ s.dir, ¬ left e) →
      exec .retireGroupVisit s = .next { s with port := s.answered .ok (countBytes retired ++ countBytes skipped) }) ∧
    ∀ e ∈ s.dir, left e → (∀ x ∈ s.dir, left x → e.key ≤ x.key) →
      ((∀ w, e.body ≠ .live w) →
        exec .retireGroupVisit s = .next { s with
          port := { s.port with task := some (.groupWalk g (some e.key) retired (skipped + 1)) } }) ∧
      ∀ w, e.body = .live w → ∃ d, exec .retireGroupVisit s = .next { s with
          dir := d
          pool := s.pool.displace s.engine.onAir e.key w
          engine := { s.engine with generation := s.engine.generation + 1#16 }
          port := { s.port with task := some (.groupWalk g (some e.key) (retired + 1) skipped) } } ∧
        d.entryOf e.key = some { e with
          flags := { e.flags with superseded := e.flags.superseded || w.confirm.isSome, feedDue := false }
          body := .withdrawing { kind := w.kind, cls := w.cls, version := w.version, length := w.length }
            s.params.withdrawals w.slot } ∧
        d.map Entry.key = s.dir.map Entry.key ∧ ∀ k, k ≠ e.key → d.entryOf k = s.dir.entryOf k

/-! ## Feed records -/

/-- FEED that passes its checks (R21, R97, R98): the bytes lie in the back chain, every other byte of the pool reads as before; a complete
fill is fresh, clears FEED_DUE and starts again from 0; a piece at offset 0 that does not complete one ends the freshness. -/
def Obligations.FeedPlacesThePiece : Prop :=
  (∀ (k1 k0 f1 f0 c : Byte) (data more : List Byte), data.length = c.toNat →
    Accepted (.feed (k1 :: k0 :: f1 :: f0 :: c :: (data ++ more))) (5 + data.length + more.length)
      (.command (.feed (k1 ++ k0) (f1.toNat * 256 + f0.toNat) data))) ∧
  ∀ (v : State) (key : Key) (offset : Nat) (data : List Byte) (e : Entry) (w : Live) (f : Feed),
    let fill := offset + data.length
    v.Runs (.feed key offset data) → key ≠ 0x0000#16 → key ≠ 0xFFFF#16 → 1 ≤ data.length → data.length ≤ 64 →
    v.dir.entryOf key = some e → e.body = .live w → w.feed = some f → offset = f.fill → fill ≤ w.length →
    ∃ d m, exec .commandCompletion v = .next { v with
        dir := d
        pool := { v.pool with mem := m }
        port := v.answered .ok
          (if fill = w.length then [0x00#8, 0x00#8, 0x01#8] else countBytes fill ++ [0x00#8]) } ∧
      (fill = w.length → d.entryOf key = some { e with
        flags := { e.flags with feedDue := false }
        body := .live { w with feed := some { f with fill := 0, fresh := true } } }) ∧
      (fill < w.length → d.entryOf key = some { e with
        body := .live { w with feed := some { f with fill := fill, fresh := f.fresh && decide (0 < offset) } } }) ∧
      d.map Entry.key = v.dir.map Entry.key ∧ (∀ k, k ≠ key → d.entryOf k = v.dir.entryOf k) ∧
      (∀ a, (∀ j b, j < data.length → f.back[(offset + j) / 32]? = some b → a ≠ 32 * b + (offset + j) % 32) →
        m.read a = v.pool.mem.read a) ∧
      (v.pool.mem.wf → f.back.Nodup → ∀ j y b, data[j]? = some y → f.back[(offset + j) / 32]? = some b →
        m.read (32 * b + (offset + j) % 32) = y)

/-- FEED's checks in their order; a refused FEED changes nothing, so the fill in progress goes on (R96). -/
def Obligations.FeedChecksInOrder : Prop :=
  (∀ k1 k0 f1 f0 c data, data.length < c.toNat →
    Accepted (.feed (k1 :: k0 :: f1 :: f0 :: c :: data)) (5 + data.length) (.command .short)) ∧
  (∀ v : State, v.Runs .short → v.Answers .short []) ∧
  ∀ (v : State) (key : Key) (offset : Nat) (data : List Byte), v.Runs (.feed key offset data) →
    (key = 0x0000#16 ∨ key = 0xFFFF#16 → v.Answers .badKey []) ∧
    (key ≠ 0x0000#16 → key ≠ 0xFFFF#16 →
      (data.length = 0 ∨ 64 < data.length → v.Answers .badLength []) ∧
      (1 ≤ data.length → data.length ≤ 64 →
        (v.dir.entryOf key = none → v.Answers .noKey []) ∧
        ∀ e, v.dir.entryOf key = some e →
          ((∀ w, e.body ≠ .live w) → v.Answers .state []) ∧
          ∀ w, e.body = .live w →
            (w.feed = none → v.Answers .kind []) ∧
            ∀ f, w.feed = some f →
              (offset ≠ f.fill → v.Answers .sequence []) ∧
              (offset = f.fill → w.length < offset + data.length → v.Answers .overrun [])))

/-! ## Reports -/

/-- READ: its checks in order, and its answer: the payload bytes of the entry's front chain at the places R21 gives; it changes nothing
outside the port (R21, R153). -/
def Obligations.ReadChecksAndAnswers : Prop :=
  (∀ (k1 k0 f1 f0 c : Byte) (more : List Byte),
    Accepted (.read (k1 :: k0 :: f1 :: f0 :: c :: more)) (5 + more.length)
      (.command (.read (k1 ++ k0) (f1.toNat * 256 + f0.toNat) c.toNat))) ∧
  ∀ (v : State) (key : Key) (offset count : Nat), v.Runs (.read key offset count) →
    (key = 0x0000#16 ∨ key = 0xFFFF#16 → v.Answers .badKey []) ∧
    (key ≠ 0x0000#16 → key ≠ 0xFFFF#16 →
      (count = 0 ∨ 64 < count → v.Answers .badLength []) ∧
      (1 ≤ count → count ≤ 64 →
        (v.dir.entryOf key = none → v.Answers .noKey []) ∧
        ∀ e, v.dir.entryOf key = some e →
          ((∀ w, e.body ≠ .live w) → v.Answers .state []) ∧
          ∀ w, e.body = .live w →
            (w.length < offset + count → v.Answers .overrun []) ∧
            (offset + count ≤ w.length → ∃ bytes : List Byte, v.Answers .ok bytes ∧ bytes.length = count ∧
              ∀ j b, j < count → w.front[(offset + j) / 32]? = some b →
                bytes[j]? = some (v.pool.mem.read (32 * b + (offset + j) % 32)))))

/-- QUERY: its refusals, and the fields of its answer at the offsets of the QUERY response table, in the codes of the port's layouts (entry
state, kind, notice flags); it changes nothing outside the port (R154, R158). That the unnamed bits of the notice flags are 0 is the model's
choice, log 23. -/
def Obligations.QueryReportsTheEntry : Prop :=
  (∀ b : Body, b.stateByte = match b with
    | .staged _ => 1#8
    | .live _ => 2#8
    | .withdrawing _ _ _ => 3#8
    | .spent _ => 4#8) ∧
  Kind.stored.byte = 0#8 ∧ Kind.feed.byte = 1#8 ∧
  (∀ b : Body, b.slot = match b with
    | .staged n => some n
    | .live w => w.slot
    | .withdrawing _ _ o => o
    | .spent _ => none) ∧
  (∀ f : Flags, f.byte.getLsbD 0 = f.confirmed ∧ f.byte.getLsbD 1 = f.overdue ∧ f.byte.getLsbD 2 = f.superseded ∧
    f.byte.getLsbD 3 = f.feedDue ∧ f.byte.getLsbD 4 = f.feedStale ∧ f.byte.getLsbD 5 = f.withdrawn ∧
    f.byte.getLsbD 6 = false ∧ f.byte.getLsbD 7 = false) ∧
  (∀ (k1 k0 : Byte) (more : List Byte),
    Accepted (.query (k1 :: k0 :: more)) (2 + more.length) (.command (.query (k1 ++ k0)))) ∧
  ∀ (v : State) (key : Key), v.Runs (.query key) →
    (key = 0x0000#16 ∨ key = 0xFFFF#16 → v.Answers .badKey []) ∧
    (key ≠ 0x0000#16 → key ≠ 0xFFFF#16 → v.dir.entryOf key = none → v.Answers .noKey []) ∧
    ∀ e, key ≠ 0x0000#16 → key ≠ 0xFFFF#16 → v.dir.entryOf key = some e →
      ∃ p : Byte, ∃ content tail : List Byte,
        v.Answers .ok (bytes16 key ++ [e.body.stateByte, p] ++ content ++ [if e.sent then 1#8 else 0#8] ++ tail) ∧
        content.length = 5 ∧
        p.getLsbD 0 = decide (∀ n, e.body ≠ .staged n) ∧ p.getLsbD 4 = e.body.slot.isSome ∧
        tail[3]? = some (match e.body.slot with
          | none => 0#8
          | some n => BitVec.ofNat 8 n.val) ∧
        tail[4]? = some e.flags.byte ∧
        tail[5]? = some (if key ∈ v.engine.queue then 1#8 else 0#8) ∧
        ((∀ w, e.body ≠ .live w) → p.getLsbD 1 = false ∧ p.getLsbD 3 = false ∧
          tail[1]? = some 0#8 ∧ tail[2]? = some 0#8 ∧ tail.drop 6 = [0#8, 0#8, 0#8, 0#8, 0#8]) ∧
        (∀ n, e.body = .staged n →
          content = [0#8, 0#8, 0#8, 0#8, 0#8] ∧ p.getLsbD 2 = false ∧ tail[0]? = some 0#8) ∧
        (∀ w, e.body = .live w →
          content = [if w.feed.isSome then 1#8 else 0#8, BitVec.ofNat 8 w.cls, w.version] ++ countBytes w.length ∧
          p.getLsbD 1 = w.feed.isSome ∧ p.getLsbD 2 = false ∧ p.getLsbD 3 = w.confirm.isSome ∧
          tail[0]? = some 0#8 ∧
          (w.confirm = none → tail[1]? = some 0#8 ∧ tail[2]? = some 0#8) ∧
          (∀ c, w.confirm = some c →
            tail[1]? = some (BitVec.ofNat 8 c.age) ∧ tail[2]? = some (if c.overdueRaised then 1#8 else 0#8)) ∧
          (∀ f, w.feed = some f →
            tail.drop 6 = countBytes f.fill ++ [if f.fresh then 1#8 else 0#8, BitVec.ofNat 8 w.front.length,
              BitVec.ofNat 8 f.back.length] ++ w.front.flatMap countBytes ++ f.back.flatMap countBytes) ∧
          (w.feed = none →
            tail.drop 6 = [0#8, 0#8, 0#8, BitVec.ofNat 8 w.front.length, 0#8] ++ w.front.flatMap countBytes)) ∧
        (∀ l r o, e.body = .withdrawing l r o →
          content = [l.kind.byte, BitVec.ofNat 8 l.cls, l.version] ++ countBytes l.length ∧
          p.getLsbD 2 = true ∧ tail[0]? = some (BitVec.ofNat 8 r)) ∧
        ∀ l, e.body = .spent l →
          content = [l.kind.byte, BitVec.ofNat 8 l.cls, l.version] ++ countBytes l.length ∧
          p.getLsbD 2 = false ∧ tail[0]? = some 0#8

/-- NOTICE: the entry it returns, the answer, the flags emptied, a SPENT entry removed, the cursor moved; with no flag held it answers key
0x0000 and changes nothing (R17, R140, R141). The version it reports is that of a LIVE entry, and the last version of a WITHDRAWING or SPENT
one. The unnamed bits of its flag byte are log 23. -/
def Obligations.NoticeCollectsInScanOrder : Prop :=
  (∀ args : List Byte, Accepted (.notice args) args.length (.command .notice)) ∧
  ((∀ w : Live, (Body.live w).versionByte = w.version) ∧ (∀ l r o, (Body.withdrawing l r o).versionByte = l.version) ∧
    ∀ l : Last, (Body.spent l).versionByte = l.version) ∧
  (∀ e : Entry, e.isSpent = true ↔ ∃ l, e.body = .spent l) ∧
  ∀ v : State, v.directoryOk → v.Runs .notice →
    ((∀ e ∈ v.dir, e.flags = Flags.none) → v.Answers .ok [0x00#8, 0x00#8, 0x00#8, 0x00#8, 0x00#8]) ∧
    ∀ e ∈ v.dir, e.flags ≠ Flags.none →
      (v.notice.cursor < e.key ∧ (∀ x ∈ v.dir, x.flags ≠ Flags.none → v.notice.cursor < x.key → e.key ≤ x.key) ∨
        e.key ≤ v.notice.cursor ∧
          ∀ x ∈ v.dir, x.flags ≠ Flags.none → x.key ≤ v.notice.cursor ∧ e.key ≤ x.key) →
      ∃ d, exec .commandCompletion v = .next { v with
          dir := d
          notice := { v.notice with cursor := e.key }
          port := v.answered .ok (bytes16 e.key ++ [e.body.stateByte, e.body.versionByte, e.flags.byte]) } ∧
        (e.isSpent = true → d.entryOf e.key = none) ∧
        (e.isSpent = false → d.entryOf e.key = some { e with flags := Flags.none }) ∧
        ∀ k, k ≠ e.key → d.entryOf k = v.dir.entryOf k

/-! ## Link, parameters, CLEAR -/

/-- START: from HALTED and FAULT the link enters KEYING, with OK; in every other state the result is STATE and nothing changes (R109,
R110). That with a key-up delay of 0 and CLR asserted the line may carry the Cycle Start frame with no idle fill before it is the model's
choice, log 25. -/
def Obligations.StartKeysTheLink : Prop :=
  (∀ args : List Byte, Accepted (.start args) args.length (.command .start)) ∧
  ∀ v : State, v.Runs .start →
    (v.link.state = .halted ∨ v.link.state = .fault →
      exec .commandCompletion v = .next { v with
        link := v.link.keyed v.params, encoder := Encoder.idle, port := v.answered .ok [] } ∧
      (v.link.keyed v.params).state.keyed = true) ∧
    (v.link.state ≠ .halted → v.link.state ≠ .fault → v.Answers .state [])

/-- CONFIGURE: STATE outside HALTED and FAULT, BAD_PARAM for a code outside the table or a value out of range; else the parameter takes
the value, and a lower W clips every WITHDRAWING count (R67, R156). -/
def Obligations.ConfigureFollowsTheTable : Prop :=
  (∀ (c v1 v0 : Byte) (more : List Byte),
    Accepted (.configure (c :: v1 :: v0 :: more)) (3 + more.length)
      (.command (.configure c (v1.toNat * 256 + v0.toNat)))) ∧
  ∀ (v : State) (code : Byte) (value : Nat), v.Runs (.configure code value) →
    (v.link.state ≠ .halted → v.link.state ≠ .fault → v.Answers .state []) ∧
    (v.link.state = .halted ∨ v.link.state = .fault →
      ((∀ row ∈ configureTable, row.1 ≠ code) → v.Answers .badParam []) ∧
      ∀ row ∈ configureTable, row.1 = code →
        (value < row.2.1 ∨ row.2.2.1 < value → v.Answers .badParam []) ∧
        (row.2.1 ≤ value → value ≤ row.2.2.1 →
          exec .commandCompletion v = .next { v with
            params := row.2.2.2 v.params value
            dir := if code = 0x04#8 then v.dir.map (fun e =>
                match e.body with
                | .withdrawing l r o => { e with body := .withdrawing l (min r value) o }
                | _ => e)
              else v.dir
            port := v.answered .ok [] }))

/-- CLEAR: at its acceptance STATE at once outside HALTED and FAULT, else BUSY for its 2 ms with nothing changed yet; at CLEAR_COMPLETION
the record store is emptied, and the cycle number, the parameters, the link, the device conditions and the pool's bytes are left (R18,
R31, R53, R69, R143, R157). -/
def Obligations.ClearEmptiesTheRecordStore : Prop :=
  (∀ (s : State) (args : List Byte), s.Ready →
    (s.link.state ≠ .halted → s.link.state ≠ .fault →
      exec (.clear args) s = .next { s with port := { s.transacted args.length with
        refused := false, task := none, result := some { code := .state, bytes := [] } } }) ∧
    (s.link.state = .halted ∨ s.link.state = .fault →
      exec (.clear args) s = .next { s with port := { s.transacted args.length with
        refused := false, task := some .clearing } })) ∧
  ∀ s : State, s.port.task = some .clearing → ∃ x, (∀ n, x.at n = none) ∧
    exec .clearCompletion s = .next { s with
      dir := []
      pool := { s.pool with free := List.range 2048, hold := none }
      slots := x
      engine := { cycle := s.engine.cycle, generation := 0#16, phase := .between, budget := 0, firstSent := false,
                  frames := 0#16, cursor := none, queue := [], served := [], onAir := none, bare := 0, truncPrev := false }
      encoder := Encoder.idle
      notice := { s.notice with cursor := 0x0000#16 }
      port := s.answered .ok [] }

/-- STOP outside RUNNING: HALTED with the cause NONE and the timers stopped, whatever the point and whatever BUSY; none in HALTED; a
STOP without its point byte is ignored (R114, R147, R149). -/
def Obligations.StopOutsideRunningHalts : Prop :=
  ∀ s : State, s.rstn = true →
    exec (.stop []) s = .next { s with port := s.transacted 0 } ∧
    ∀ (p : Byte) (more : List Byte),
      (s.link.state = .halted → exec (.stop (p :: more)) s = .next { s with port := s.transacted (1 + more.length) }) ∧
      (s.link.state ≠ .halted → s.link.state ≠ .running → exec (.stop (p :: more)) s = .next { s with
        port := s.transacted (1 + more.length)
        encoder := Encoder.idle
        link := { s.link with state := .halted, cause := .none, keyUp := none, clearWait := none } })

/-- STOP in RUNNING sets the earlier of the pending and the new point (R115). With IMMEDIATE pending, its Abort on air or about to start,
nothing changes. A point that is not reached at the completion leaves all else as it is: FRAME with a frame on air or about to start,
CYCLE with either or a cycle open (R89, R92). In BETWEEN (R92, R116): with no frame on air or about to start the link is HALTED at once;
IMMEDIATE abandons a Cycle End on air for an Abort that starts behind the byte on the line, and sets truncated-previous; an Abort on air
completes. That a Cycle End not yet started gives way in the same way is the model's choice, log 21. -/
def Obligations.StopInRunningSetsTheEarlierPoint : Prop :=
  (∀ (s : State) (p : Byte) (more : List Byte), s.rstn = true → s.link.state = .running →
    (s.link.stop = .immediate →
      exec (.stop (p :: more)) s = .next { s with port := s.transacted (1 + more.length) }) ∧
    (s.link.stop ≠ .immediate → p = 2#8 ∨ p = 3#8 ∧ s.link.stop = .frame →
      s.engine.onAir ≠ none ∨ s.encoder.waiting ≠ none →
      exec (.stop (p :: more)) s = .next { s with
        port := s.transacted (1 + more.length), link := { s.link with stop := .frame } }) ∧
    (s.link.stop = .none ∨ s.link.stop = .cycle → p = 3#8 →
      s.engine.onAir ≠ none ∨ s.encoder.waiting ≠ none ∨ s.engine.phase ≠ .between →
      exec (.stop (p :: more)) s = .next { s with
        port := s.transacted (1 + more.length), link := { s.link with stop := .cycle } })) ∧
  ∀ (s : State) (p : Byte) (more : List Byte), s.rstn = true → s.link.state = .running → s.link.stop ≠ .immediate →
    s.engine.phase = .between →
    (s.engine.onAir = none → s.encoder.waiting = none → exec (.stop (p :: more)) s = .next { s with
      port := s.transacted (1 + more.length)
      encoder := Encoder.idle
      link := { s.link with state := .halted, stop := .none, pacing := .stopped, firstPending := false, cyc := false }
      notice := { s.notice with conds := { s.notice.conds with haltReached := true } } }) ∧
    (p ≠ 2#8 → p ≠ 3#8 →
      (∀ f, s.nextEnding = some (.cycleEnd f) → s.bytesToFinish ≠ [] → exec (.stop (p :: more)) s = .next { s with
        port := s.transacted (1 + more.length)
        engine := { s.engine with truncPrev := true, onAir := none }
        encoder := { Encoder.idle with waiting := some { lead := s.bytesToFinish, frame := .abort } }
        link := { s.link with stop := .immediate } }) ∧
      (∀ f, s.nextEnding = some (.cycleEnd f) → s.bytesToFinish = [] → exec (.stop (p :: more)) s = .next { s with
        port := s.transacted (1 + more.length)
        engine := { s.engine with truncPrev := true, onAir := some .abort }
        encoder := Encoder.idle
        link := { s.link with stop := .immediate } }) ∧
      (s.engine.onAir = some .abort → exec (.stop (p :: more)) s = .next { s with
        port := s.transacted (1 + more.length), link := { s.link with stop := .immediate } }))

/-- The early end (R29, R88). STOP IMMEDIATE in an open cycle abandons the frame on air and releases the held chain; no frame is on air
then, and an Abort starts when the bytes to finish have been sent, at once at the byte boundary after a frame's or the last gap byte's end
(R90). A FRAME point with no frame on air, at the STOP's completion or at a frame choice, ends the cycle; the truncated Cycle End starts
after the gap byte on the line at a STOP, at once when none is left (R89, R124) and at a choice (R74). The bytes to finish: the byte of the
frame on the line, both bytes when it is the first half of an escape pair (R125), what is left of them when a frame waits behind them
already, and with no frame on air the gap byte, if one is still to be sent (R124). That a STOP among gap bytes falls within one is log 21;
that the gap bytes still to be sent go on the line before the choice's frame is log 7. -/
def Obligations.StopPointsEndTheCycleEarly : Prop :=
  (∀ s : State,
    (∀ f, s.engine.onAir = some f → s.encoder.pairFirst = true → s.bytesToFinish = [0xE7#8, 0xE7#8]) ∧
    (∀ f, s.engine.onAir = some f → s.encoder.pairFirst = false → s.link.state.keyed = true →
      s.bytesToFinish = if s.encoder.place < f.byteLength then s.txdByte.toList else []) ∧
    (∀ w, s.engine.onAir = none → s.encoder.waiting = some w → s.bytesToFinish = w.lead) ∧
    (s.engine.onAir = none → s.encoder.waiting = none → s.bytesToFinish = s.txdByte.toList) ∧
    (s.engine.onAir = none → s.encoder.waiting = none → s.link.state = .running → s.engine.phase ≠ .between →
      s.bytesToFinish = if s.encoder.gap = 0 then [] else [0xAA#8])) ∧
  (∀ (s : State) (p : Byte) (more : List Byte), s.rstn = true → s.link.state = .running → s.link.stop ≠ .immediate →
    s.engine.phase ≠ .between → p ≠ 2#8 → p ≠ 3#8 →
    exec (.stop (p :: more)) s = .next { s with
      port := s.transacted (1 + more.length)
      pool := s.pool.heldReleased
      engine := { s.engine with
        queue := s.earlyQueue, truncPrev := true, phase := .between
        onAir := if s.bytesToFinish = [] then some .abort else none }
      encoder := { Encoder.idle with
        waiting := if s.bytesToFinish = [] then none else some { lead := s.bytesToFinish, frame := .abort } }
      link := { s.link with stop := .immediate } }) ∧
  ∀ s : State, s.link.state = .running → s.engine.phase ≠ .between → s.engine.onAir = none →
    let endFrame := AirFrame.cycleEnd { cycle := s.engine.cycle, frames := s.engine.frames, truncated := true }
    let en := { s.engine with queue := s.earlyQueue, truncPrev := true, phase := .between }
    (∀ more : List Byte, s.rstn = true → s.link.stop ≠ .immediate → s.encoder.waiting = none →
      exec (.stop (2#8 :: more)) s = .next { s with
        port := s.transacted (1 + more.length)
        pool := s.pool.heldReleased
        engine := { en with onAir := if s.encoder.gap = 0 then some endFrame else none }
        encoder := { Encoder.idle with
          waiting := if s.encoder.gap = 0 then none else some { lead := [0xAA#8], frame := endFrame } }
        link := { s.link with stop := .frame } }) ∧
    (s.link.stop = .frame →
      exec .frameChoice s = .next { s with
        pool := s.pool.heldReleased, engine := { en with onAir := some endFrame }, encoder := Encoder.idle
        line := List.replicate s.encoder.gap 0xAA#8 })

/-- The link's timers and CLR's assertion: key-up expiry, the end of CLEAR_WAIT by CLR or by its timer (R110, R111, R112, R118, R121), the
pacing timer's expiry (R113), and the fall of CYC at the end of the byte-time of the Cycle Start frame's marker, which that row sends (R108,
R129; log 7). A cycle start that becomes due inside a fill
byte, by the entry into RUNNING or by pacing's expiry between cycles, waits for that byte's end; on a byte boundary it does not (R112,
R113). An expiry falls exactly its milliseconds after the keying or the cycle start, which are byte boundaries (R123, R127); where CLR's
assertion falls is a free value of the model, log 21. That an expiry of the stopped pacing timer, or
CYC's fall where it is low, changes nothing is the model's choice, log 3. -/
def Obligations.TimersAndClrMoveTheLink : Prop :=
  (∀ s : State,
    (∀ ms, s.link.keyUp = some ms → s.link.clr = true → exec .keyUpTimerExpiry s = .next { s with
      encoder := if ms * (1200 * 2 ^ s.params.rate) % 8000 = 0 then s.encoder
        else { s.encoder with gap := max s.encoder.gap 1 }
      link := { s.link with state := .running, stop := .none, keyUp := none, clearWait := none, pacing := .stopped,
                            firstPending := true } }) ∧
    (∀ ms, s.link.keyUp = some ms → s.link.clr = false → exec .keyUpTimerExpiry s = .next { s with
      link := { s.link with state := .clearWait, keyUp := none, clearWait := some (s.params.clearWaitLimit * 10) } }) ∧
    (s.link.state = .clearWait → exec .clrAsserted s = .next { s with
      freeCount := s.freeCount + 1
      encoder := if Sys2Proof.Config.clrOnByteBoundary s.freeCount = true then s.encoder
        else { s.encoder with gap := max s.encoder.gap 1 }
      link := { s.link with state := .running, stop := .none, keyUp := none, clearWait := none, pacing := .stopped,
                            firstPending := true, clr := true } }) ∧
    (s.link.state ≠ .clearWait → exec .clrAsserted s = .next { s with link := { s.link with clr := true } }) ∧
    ∀ ms, s.link.clearWait = some ms → exec .clearWaitTimerExpiry s = .next { s with
      engine := { s.engine with onAir := none }
      encoder := Encoder.idle
      link := { s.link with state := .fault, cause := .notClear, stop := .none, keyUp := none, clearWait := none,
                            pacing := .stopped, firstPending := false, cyc := false }
      notice := { s.notice with conds := { s.notice.conds with linkFault := true } } }) ∧
  ∀ s : State,
    (∀ ms, s.link.pacing = .running ms → exec .pacingTimerExpiry s = .next { s with
      link := { s.link with pacing := .expired }
      encoder := if s.engine.onAir = none ∧ s.encoder.waiting = none ∧ s.engine.phase = .between ∧
          ms * (1200 * 2 ^ s.params.rate) % 8000 ≠ 0 then { s.encoder with gap := max s.encoder.gap 1 } else s.encoder }) ∧
    (s.link.pacing = .stopped → exec .pacingTimerExpiry s = .next s) ∧
    (s.link.cyc = false → exec .cycPulseEnd s = .next s) ∧
    (s.link.cyc = true → ∃ t, exec .cycPulseEnd s = .next t ∧
      t = { s with line := t.line, engine := t.engine, encoder := t.encoder, link := { s.link with cyc := false } }) ∧
    (∀ f, s.link.cyc = true → s.link.state = .running → s.engine.onAir = some (.cycleStart f) → s.encoder.place = 0 →
      s.encoder.pairFirst = false → exec .cycPulseEnd s = .next { s with
        line := [0xE7#8], encoder := { s.encoder with place := 1 }, link := { s.link with cyc := false } }) ∧
    ∀ b f, s.link.cyc = true → s.link.state = .running → s.engine.onAir = none →
      s.encoder.waiting = some { lead := [b], frame := f } → exec .cycPulseEnd s = .next { s with
        line := [b], engine := { s.engine with onAir := some f }
        encoder := { waiting := none, place := 0, pairFirst := false, crc := 0xFFFF#16, gap := 0 }
        link := { s.link with cyc := false } }

/-- CLR deasserts, said of both rows that name it (R29, R88, R91, R92, R118, R121): in RUNNING the frame on air is cut, an open cycle
ends early, a cut Cycle End sets truncated-previous, and the link is in FAULT; elsewhere only the pin's level changes. That the two rows
are one event of the pin is the model's reading, log 13. -/
def Obligations.LossOfClrCutsTheLine : Prop :=
  ∀ (s : State), ∀ i ∈ [Instr.lossOfClr, Instr.clrDeassertion],
    (s.link.state ≠ .running → exec i s = .next { s with link := { s.link with clr := false } }) ∧
    (s.link.state = .running → ∃ t, exec i s = .next t ∧
      t.link = { s.link with state := .fault, cause := .linkLost, stop := .none, keyUp := none, clearWait := none,
                             pacing := .stopped, firstPending := false, cyc := false, clr := false } ∧
      t.notice = { s.notice with conds := { s.notice.conds with linkFault := true } } ∧
      t.txdByte = none ∧ t.keyOutput = false ∧ t.encoder = Encoder.idle ∧
      t.rstn = s.rstn ∧ t.dir = s.dir ∧ t.slots = s.slots ∧ t.port = s.port ∧ t.params = s.params ∧
      (s.engine.phase ≠ .between → t.pool = s.pool.heldReleased ∧
        t.engine = { s.engine with queue := s.earlyQueue, truncPrev := true, phase := .between, onAir := none }) ∧
      (s.engine.phase = .between → t.pool = s.pool ∧
        (∀ f, s.engine.onAir = some (.cycleEnd f) → t.engine = { s.engine with truncPrev := true, onAir := none }) ∧
        (s.engine.onAir = none ∨ s.engine.onAir = some .abort → t.engine = { s.engine with onAir := none })))

/-! ## The carousel cycle -/

/-- CYCLE_START, when the engine is in BETWEEN, the link RUNNING with no stop point, no frame on air, and the cycle is the first or the
pacing timer has expired (R71, R72, R113, R129, R137). The live count is the number of entries in state LIVE (R7). Every entry, judged with
the new cycle number: sent-this-cycle no; a pending confirmation ages, stopping at 15, and raises OVERDUE once at the limit; a due FEED
entry gains FEED_DUE (R4, R95, R133, R134). The gap bytes, or the fill byte, still to be sent go on the line before the frame (R113, R124;
log 7). -/
def Obligations.CycleStartOpensTheCycle : Prop :=
  (∀ s : State, s.engine.phase = .between → s.link.state = .running → s.engine.onAir = none → s.link.stop = .none →
    (s.link.firstPending = true ∨ s.link.pacing = .expired) →
    ∃ d, exec .cycleStart s = .next { s with
        dir := d
        engine := { s.engine with
          cycle := s.engine.cycle + 1#16, phase := .carry, budget := s.params.budget, firstSent := false, frames := 0#16
          cursor := none, served := [], bare := if s.link.firstPending then 0 else s.engine.bare, truncPrev := false
          onAir := some (.cycleStart {
            cycle := s.engine.cycle + 1#16, generation := s.engine.generation
            liveCount := (s.dir.filter (fun e => e.isLive)).length
            carryCount := min s.engine.queue.length 255, first := s.link.firstPending
            truncatedPrevious := s.engine.truncPrev }) }
        encoder := { waiting := none, place := 0, pairFirst := false, crc := 0xFFFF#16, gap := 0 }
        line := List.replicate s.encoder.gap 0xAA#8
        link := { s.link with
          pacing := if s.params.period = 0 then .expired else .running s.params.period, firstPending := false, cyc := true }
        notice := { s.notice with conds := { s.notice.conds with
          cycleStart := s.notice.conds.cycleStart || s.params.cycleAttention } } }) ∧
  (∀ e : Entry, e.isLive = true ↔ ∃ v, e.body = .live v) ∧
  (∀ s : State, s.cycleAllowed = true ↔ s.engine.phase = .between ∧ s.link.state = .running ∧ s.engine.onAir = none ∧
    s.link.stop = .none ∧ (s.link.firstPending = true ∨ s.link.pacing = .expired)) ∧
  ∀ s : State, s.cycleAllowed = true → ∃ t, exec .cycleStart s = .next t ∧ t.dir.length = s.dir.length ∧
    ∀ (i : Nat) (e : Entry), s.dir[i]? = some e →
      ((∀ v, e.body ≠ .live v) → t.dir[i]? = some { e with sent := false }) ∧
      ∀ v, e.body = .live v →
        let due := (s.engine.cycle + 1#16).toNat % 2 ^ v.cls = e.key.toNat % 2 ^ v.cls
        (v.confirm = none → t.dir[i]? = some { e with
          sent := false, flags := { e.flags with feedDue := e.flags.feedDue || (v.feed.isSome && decide due) } }) ∧
        ∀ c, v.confirm = some c →
          let age := min (c.age + 1) 15
          t.dir[i]? = some { e with
            sent := false
            flags := { e.flags with
              overdue := e.flags.overdue || (!c.overdueRaised && decide (s.params.confirmLimit ≤ age))
              feedDue := e.flags.feedDue || (v.feed.isSome && decide due) }
            body := .live { v with confirm := some {
              age := age, overdueRaised := c.overdueRaised || decide (s.params.confirmLimit ≤ age) } } }

/-- A record of class c is due in the cycles whose number and the key agree modulo 2^c; of any 2^c cycles in a row it is due in exactly one
(R4). -/
def Obligations.DueOnceInEveryRound : Prop :=
  (∀ (cls : Nat) (k : Key) (n : Word16), isDue cls k n = true ↔ n.toNat % 2 ^ cls = k.toNat % 2 ^ cls) ∧
  ∀ (cls : Nat) (k : Key) (n : Word16), cls ≤ 3 →
    ∃ j, j < 2 ^ cls ∧ isDue cls k (n + BitVec.ofNat 16 j) = true ∧
      ∀ i, i < 2 ^ cls → isDue cls k (n + BitVec.ofNat 16 i) = true → i = j

/-- The choice's candidate (R75, R76). The WALK candidates are the entries LIVE and due, or WITHDRAWING, above the cursor ("start" outside
WALK), unsent and not on the carry-served list. In CARRY the candidate is the first queued key whose entry is LIVE or WITHDRAWING and
unsent, every key before it dropped; with no queued key left the phase becomes WALK with the cursor at "start", and in WALK the candidate
is the WALK candidate with the smallest key. -/
def Obligations.ChoiceFindsItsCandidate : Prop :=
  (∀ b : Body, b.onCarousel = true ↔ (∃ v, b = .live v) ∨ ∃ l r o, b = .withdrawing l r o) ∧
  (∀ (s : State) (e : Entry), e ∈ s.walkCandidates ↔
    e ∈ s.dir ∧ e.sent = false ∧ e.key ∉ s.engine.served ∧
      (∀ k, s.engine.phase = .walk → s.engine.cursor = some k → k < e.key) ∧
      ((∃ v, e.body = .live v ∧ s.engine.cycle.toNat % 2 ^ v.cls = e.key.toNat % 2 ^ v.cls) ∨
        ∃ l r o, e.body = .withdrawing l r o)) ∧
  ∀ s : State, s.directoryOk →
    (∀ (dropped rest : List Key) (e : Entry), s.engine.phase = .carry → s.engine.queue = dropped ++ e.key :: rest →
      (∀ k ∈ dropped, ∀ x ∈ s.dir, x.key = k → x.body.onCarousel = false ∨ x.sent = true) →
      e ∈ s.dir → e.body.onCarousel = true → e.sent = false →
      s.settleQueue = { s with engine := { s.engine with queue := e.key :: rest } } ∧
        s.settleQueue.candidate = some (.carry, e)) ∧
    (s.engine.phase = .carry →
      (∀ k ∈ s.engine.queue, ∀ x ∈ s.dir, x.key = k → x.body.onCarousel = false ∨ x.sent = true) →
      s.settleQueue = { s with engine := { s.engine with queue := [], phase := .walk, cursor := none } }) ∧
    (s.engine.phase = .walk → s.settleQueue = s ∧
      (s.candidate = none ↔ s.walkCandidates = []) ∧
      ∀ e, s.candidate = some (.walk, e) ↔ e ∈ s.walkCandidates ∧ ∀ x ∈ s.walkCandidates, e.key ≤ x.key)

/-- FRAME_CHOICE with a candidate that passes the budget check starts its frame: cost, cursor or queue, and the fixed fields (R74, R78, R79,
R80). The entry at its frame start: a fresh FEED back chain is swapped in and the version advances, ending a pending confirmation with
SUPERSEDED; a FEED entry that is not fresh gains FEED_STALE; any other entry, and every entry of another key, is left (R99, R100). The gap
bytes still to be sent go on the line before the frame (R74, R124; log 7). -/
def Obligations.FrameChoiceStartsTheFrame : Prop :=
  ((∀ v : Live, (Body.live v).cost = 10 + v.length) ∧ (∀ l r o, (Body.withdrawing l r o).cost = 8) ∧
    ∀ (en : Engine) (cost : Nat), en.fits cost = true ↔ en.firstSent = false ∨ cost ≤ en.budget) ∧
  (∀ (s : State) (source : Source) (e : Entry), s.directoryOk →
    s.engine.phase ≠ .between → s.link.state = .running → s.engine.onAir = none → s.link.stop ≠ .frame →
    s.settleQueue.candidate = some (source, e) →
    let en := s.settleQueue.engine
    let cost := match e.body with
      | .live v => 10 + v.length
      | _ => 8
    en.firstSent = false ∨ cost ≤ en.budget →
    ∃ d f, exec .frameChoice s = .next { s with
        dir := d
        engine := { en with
          budget := en.budget - cost, firstSent := true, onAir := some f
          queue := if source = .carry then en.queue.tail else en.queue
          cursor := if source = .walk then some e.key else en.cursor }
        encoder := { waiting := none, place := 0, pairFirst := false, crc := 0xFFFF#16, gap := 0 }
        line := List.replicate s.encoder.gap 0xAA#8 } ∧
      (∀ l r o, e.body = .withdrawing l r o →
        f = .withdrawal { key := e.key, source := source, version := l.version, after := r - 1 }) ∧
      ∀ v, e.body = .live v → ∃ e' w, d.entryOf e.key = some e' ∧ e'.body = .live w ∧
        f = .record {
          key := e.key, source := source, version := w.version, cls := v.cls, length := v.length, chain := w.front
          kind := if v.feed.isSome then .feed else .stored
          stale := v.feed.any (fun x => !x.fresh) }) ∧
  ∀ (s : State) (source : Source) (e : Entry), s.directoryOk →
    s.engine.phase ≠ .between → s.link.state = .running → s.engine.onAir = none → s.link.stop ≠ .frame →
    s.settleQueue.candidate = some (source, e) → s.settleQueue.engine.fits e.body.cost = true →
    ∃ t, exec .frameChoice s = .next t ∧ t.dir.map Entry.key = s.dir.map Entry.key ∧
      (∀ k, k ≠ e.key → t.dir.entryOf k = s.dir.entryOf k) ∧
      ((∀ v, e.body = .live v → v.feed = none) → t.dir.entryOf e.key = some e) ∧
      ∀ v f, e.body = .live v → v.feed = some f →
        (f.fresh = false → t.dir.entryOf e.key = some { e with flags := { e.flags with feedStale := true } }) ∧
        (f.fresh = true → t.dir.entryOf e.key = some { e with
          flags := { e.flags with superseded := e.flags.superseded || v.confirm.isSome }
          body := .live { v with
            version := v.version + 1#8, front := f.back
            feed := some { back := v.front, fill := 0, fresh := false }, confirm := none } })

/-- FRAME_CHOICE that closes the cycle: normally with no candidate, by overflow when the candidate's cost is over the budget left; the
queue, the bare-cycle count and the Cycle End frame (R79, R83, R84, R86, R87). The gap bytes still to be sent go on the line before the
frame (R74, R124; log 7). -/
def Obligations.FrameChoiceClosesTheCycle : Prop :=
  ∀ s : State, s.engine.phase ≠ .between → s.link.state = .running → s.engine.onAir = none → s.link.stop ≠ .frame →
    let u := s.settleQueue
    let endFrame := AirFrame.cycleEnd { cycle := s.engine.cycle, frames := s.engine.frames, truncated := false }
    (u.candidate = none → exec .frameChoice s = .next { s with
      engine := { u.engine with
        phase := .between, onAir := some endFrame
        bare := if s.engine.firstSent = false ∧ u.engine.queue = [] ∧ (∀ e ∈ s.dir, e.body.onCarousel = false)
          then min (s.engine.bare + 1) 15 else 0 }
      encoder := Encoder.idle
      line := List.replicate s.encoder.gap 0xAA#8 }) ∧
    ∀ source e, u.candidate = some (source, e) → s.engine.firstSent = true → s.engine.budget < e.body.cost →
      exec .frameChoice s = .next { s with
        engine := { u.engine with
          phase := .between, onAir := some endFrame, bare := 0
          queue := u.engine.queue ++ (u.walkCandidates.map Entry.key).filter (fun k => decide (k ∉ u.engine.queue)) }
        encoder := Encoder.idle
        line := List.replicate s.encoder.gap 0xAA#8 }

/-- No frame is chosen for a key whose frame has completed in this cycle: the entry's sent-this-cycle is no, and in WALK its key is not
on the carry-served list (R77). -/
def Obligations.NoFrameForASentKey : Prop :=
  (∀ (f : AirFrame) (k : Key), f.key = some k ↔
    (∃ r, f = .record r ∧ r.key = k) ∨ ∃ w, f = .withdrawal w ∧ w.key = k) ∧
  ∀ (s : State), s.engine.onAir = none → ∃ t, exec .frameChoice s = .next t ∧
    ∀ k, t.engine.onAir.bind AirFrame.key = some k →
      ∃ e ∈ s.dir, e.key = k ∧ e.sent = false ∧ e.body.onCarousel = true ∧
        (t.engine.phase = .walk → k ∉ s.engine.served)

/-- RECORD_FRAME_END with no FRAME point pending (R29, R77, R81, R82, R124): sent-this-cycle, the confirmation whose version the frame
carried, the count of frames, the carry-served list, the hold, the gap bytes. The frame's bytes still to be sent go on the line first, and
CYC is low behind them (R108, R127; log 7). -/
def Obligations.RecordFrameEndCompletesTheFrame : Prop :=
  ∀ (s : State) (f : RecordFrame), s.engine.onAir = some (.record f) → s.link.stop ≠ .frame →
    ∃ d, exec .recordFrameEnd s = .next { s with
        dir := d
        pool := s.pool.heldReleased
        engine := { s.engine with
          frames := s.engine.frames + 1#16, onAir := none
          served := if f.source = .carry ∧ f.key ∉ s.engine.served then s.engine.served ++ [f.key] else s.engine.served }
        encoder := { Encoder.idle with gap := s.params.gap }
        line := s.bytesToFrameEnd
        link := { s.link with cyc := false } } ∧
      d.map Entry.key = s.dir.map Entry.key ∧ (∀ k, k ≠ f.key → d.entryOf k = s.dir.entryOf k) ∧
      ∀ e, s.dir.entryOf f.key = some e →
        (∀ v c, e.body = .live v → v.confirm = some c → v.version = f.version →
          d.entryOf f.key = some { e with
            sent := true, flags := { e.flags with confirmed := true }, body := .live { v with confirm := none } }) ∧
        ((∀ v c, e.body = .live v → v.confirm = some c → v.version ≠ f.version) →
          d.entryOf f.key = some { e with sent := true })

/-- WITHDRAWAL_FRAME_END with no FRAME point pending (R16, R17, R63, R81): the remaining count falls by 1; at 1 an open slot holds it, else
the entry is SPENT with WITHDRAWN, or removed with the spent-notice option off; an entry that is LIVE again keeps its fields. The frame's
bytes still to be sent go on the line first, and CYC is low behind them (R108, R127; log 7). -/
def Obligations.WithdrawalFrameEndLowersTheCount : Prop :=
  ∀ (s : State) (f : WithdrawalFrame), s.engine.onAir = some (.withdrawal f) → s.link.stop ≠ .frame →
    ∃ d, exec .withdrawalFrameEnd s = .next { s with
        dir := d
        pool := s.pool.heldReleased
        engine := { s.engine with
          frames := s.engine.frames + 1#16, onAir := none
          served := if f.source = .carry ∧ f.key ∉ s.engine.served then s.engine.served ++ [f.key] else s.engine.served }
        encoder := { Encoder.idle with gap := s.params.gap }
        line := s.bytesToFrameEnd
        link := { s.link with cyc := false } } ∧
      (∀ k, k ≠ f.key → d.entryOf k = s.dir.entryOf k) ∧
      ∀ e, s.dir.entryOf f.key = some e →
        (∀ l r o, e.body = .withdrawing l r o → 2 ≤ r →
          d.entryOf f.key = some { e with sent := true, body := .withdrawing l (r - 1) o }) ∧
        (∀ l n, e.body = .withdrawing l 1 (some n) → d.entryOf f.key = some { e with sent := true }) ∧
        (∀ l, e.body = .withdrawing l 1 none →
          (s.params.spentNotice = true → d.entryOf f.key = some { e with
            sent := true, flags := { e.flags with withdrawn := true }, body := .spent l }) ∧
          (s.params.spentNotice = false → d.entryOf f.key = none ∧ d = s.dir.filter (fun x => x.key != f.key))) ∧
        (∀ v, e.body = .live v → d.entryOf f.key = some { e with sent := true })

/-- A FRAME point pending at the end of a Cycle Start, Record or Withdrawal frame: the frame end acts in full, the cycle ends early with no
abandoned frame, and the truncated Cycle End starts at once, with no gap bytes (R88, R89, R124). What goes on the line first is as without
the point, and CYC is low behind it (R108). -/
def Obligations.FramePointIsReachedAtTheFrameEnd : Prop :=
  ∀ (s : State) (i : Instr) (f : AirFrame), s.engine.onAir = some f → s.link.stop = .frame →
    (i = .cycleStartFrameEnd ∧ (∃ x, f = .cycleStart x) ∨ i = .recordFrameEnd ∧ (∃ x, f = .record x) ∨
      i = .withdrawalFrameEnd ∧ ∃ x, f = .withdrawal x) →
    ∃ u, exec i { s with link := { s.link with stop := .none } } = .next u ∧
      exec i s = .next { u with
        engine := { u.engine with
          queue := u.earlyQueue, truncPrev := true, phase := .between
          onAir := some (.cycleEnd { cycle := u.engine.cycle, frames := u.engine.frames, truncated := true }) }
        pool := u.pool.heldReleased
        encoder := Encoder.idle
        link := { s.link with cyc := false } }

/-- The ends of the frames that carry no key. Cycle Start with no FRAME point pending: the gap bytes follow (R89, R124). Abort: HALTED with
HALT_REACHED (R116). Cycle End, in this order: HALTED with HALT_REACHED when a stop point is pending or the frame was truncated; else
DORMANT when the bare-cycle count stands at a limit that is not 0; else the link stays RUNNING and the gap bytes follow (R116, R117, R119).
An Abort or Cycle End that waits for a byte boundary is sent first, with the bytes before it; CYC is low behind the bytes sent (R108, R129;
log 7). That a truncated Cycle End halts with
no point pending, which no run shows, is log 17; that the count at the Cycle End's end stands for the report made at the close is log 16;
that it does so also when a COMMIT made an entry LIVE during the Cycle End, or a RETIRE then made it WITHDRAWING, is log 24. -/
def Obligations.KeylessFrameEndsDecideTheLink : Prop :=
  (∀ (s : State) (f : AirFrame), s.nextEnding = some f ↔
    s.engine.onAir = some f ∨ s.engine.onAir = none ∧ ∃ w, s.encoder.waiting = some w ∧ w.frame = f) ∧
  (∀ (s : State) (f : CycleStartFrame), s.engine.onAir = some (.cycleStart f) → s.link.stop ≠ .frame →
    exec .cycleStartFrameEnd s = .next { s with
      engine := { s.engine with onAir := none }, encoder := { Encoder.idle with gap := s.params.gap }
      line := s.bytesToFrameEnd
      link := { s.link with cyc := false } }) ∧
  (∀ s : State, s.nextEnding = some .abort → exec .abortFrameEnd s = .next { s with
    engine := { s.engine with onAir := none }
    encoder := Encoder.idle
    line := s.bytesToFrameEnd
    link := { s.link with state := .halted, stop := .none, pacing := .stopped, firstPending := false, cyc := false }
    notice := { s.notice with conds := { s.notice.conds with haltReached := true } } }) ∧
  ∀ (s : State) (f : CycleEndFrame), s.nextEnding = some (.cycleEnd f) →
    (s.link.stop ≠ .none ∨ f.truncated = true → exec .cycleEndFrameEnd s = .next { s with
      engine := { s.engine with onAir := none }
      encoder := Encoder.idle
      line := s.bytesToFrameEnd
      link := { s.link with state := .halted, stop := .none, pacing := .stopped, firstPending := false, cyc := false }
      notice := { s.notice with conds := { s.notice.conds with haltReached := true } } }) ∧
    (s.link.stop = .none → f.truncated = false → s.params.bareLimit ≠ 0 → s.engine.bare = s.params.bareLimit →
      exec .cycleEndFrameEnd s = .next { s with
        engine := { s.engine with onAir := none }
        encoder := Encoder.idle
        line := s.bytesToFrameEnd
        link := { s.link with state := .dormant, stop := .none, pacing := .stopped, firstPending := false, cyc := false }
        notice := { s.notice with conds := { s.notice.conds with dormantEntered := true } } }) ∧
    (s.link.stop = .none → f.truncated = false → s.params.bareLimit = 0 ∨ s.engine.bare ≠ s.params.bareLimit →
      exec .cycleEndFrameEnd s = .next { s with
        engine := { s.engine with onAir := none }, encoder := { Encoder.idle with gap := s.params.gap }
        line := s.bytesToFrameEnd
        link := { s.link with cyc := false } })

/-! ## What only some rows change -/

/-- The link state changes only by the causes, and to the states, that the link state table gives, reset apart (R107). That the row UNKNOWN
with STOP's code, which is ill-formed, acts as STOP is the model's choice, log 18. -/
def Obligations.LinkStateChangesAsTheTable : Prop :=
  ∀ (i : Instr) (s : State), s.LinkOk → i ≠ .powerOnReset → i ≠ .powerOnInitialisation →
    ∃ t, exec i s = .next t ∧ (t.link.state = s.link.state ∨
      ((s.link.state = .halted ∨ s.link.state = .fault) ∧ i = .commandCompletion ∧ s.Runs .start ∧
        t.link.state.keyed = true) ∨
      (s.link.state = .dormant ∧ i = .commandCompletion ∧ (∃ n o, s.Runs (.commit n o)) ∧ t.link.state.keyed = true) ∨
      (s.link.state = .keying ∧ i = .keyUpTimerExpiry ∧
        t.link.state = if s.link.clr then LinkState.running else LinkState.clearWait) ∨
      (s.link.state = .clearWait ∧ i = .clrAsserted ∧ t.link.state = .running) ∨
      (s.link.state = .clearWait ∧ i = .clearWaitTimerExpiry ∧ t.link.state = .fault ∧ t.link.cause = .notClear) ∨
      (s.link.state = .running ∧ (i = .lossOfClr ∨ i = .clrDeassertion) ∧ t.link.state = .fault ∧
        t.link.cause = .linkLost) ∨
      (s.link.state = .running ∧ i = .cycleEndFrameEnd ∧ (t.link.state = .halted ∨ t.link.state = .dormant)) ∨
      (s.link.state = .running ∧ i = .abortFrameEnd ∧ t.link.state = .halted) ∨
      (s.link.state ≠ .halted ∧ ((∃ a, i = .stop a) ∨ ∃ a, i = .unknown 0x03#8 a) ∧ t.link.state = .halted))

/-- Slots, block contents and the parameters change at completions alone (reset and CLEAR apart): no link event and no playout event
touches them (R21, R52, R107, R156). -/
def Obligations.PlayoutAndLinkLeaveTheSessions : Prop :=
  ∀ (i : Instr) (s : State), i ≠ .powerOnReset → i ≠ .powerOnInitialisation →
    ∃ t, exec i s = .next t ∧
      (i ≠ .commandCompletion → i ≠ .clearCompletion → t.slots = s.slots) ∧
      (i ≠ .commandCompletion → t.params = s.params ∧ t.pool.mem = s.pool.mem)

/-- What may move the generation and the cycle number, reset apart (R45, R59, R69, R72): the generation changes only by adding 1 at a
COMMIT's or RETIRE's completion or at a walk's visit, or to 0 at CLEAR_COMPLETION; the cycle number only by adding 1 at a CYCLE_START. -/
def Obligations.GenerationAndCycleNumberMove : Prop :=
  ∀ (i : Instr) (s : State), i ≠ .powerOnReset → i ≠ .powerOnInitialisation →
    ∃ t, exec i s = .next t ∧
      (t.engine.cycle = s.engine.cycle ∨ i = .cycleStart ∧ t.engine.cycle = s.engine.cycle + 1#16) ∧
      (t.engine.generation = s.engine.generation ∨
        i = .clearCompletion ∧ t.engine.generation = 0#16 ∨
        t.engine.generation = s.engine.generation + 1#16 ∧
          (i = .retireGroupVisit ∨
            i = .commandCompletion ∧ ((∃ n o, s.Runs (.commit n o)) ∨ ∃ k, s.Runs (.retire k))))

/-! ## The carousel link -/

/-- The bytes of every frame. Marker and type byte as they are, then the covered bytes and the check code with each 0xE7 sent twice; an
Abort has neither (R125, R126). The check code: 0xFFFF before the first covered byte, each byte from its most significant bit to its least,
the polynomial 0x8BB7, high byte first (R126). The covered fields of each type in their order, two-byte fields high byte first, flag bits
not named 0, the payload from the fixed chain (R21, R128 to R132). The length: the budget's measure, plus one byte for every 0xE7 after the
type byte (R78, R127, R128). On TXD bit 0 of a byte goes first (R123, R128). -/
def Obligations.FrameBytesOnTheLine : Prop :=
  (∀ (m : Memory) (f : AirFrame),
    f.lineBytes m =
      [0xE7#8, match f with
        | .cycleStart _ => 0x31#8
        | .record _ => 0x32#8
        | .withdrawal _ => 0x33#8
        | .cycleEnd _ => 0x34#8
        | .abort => 0x3F#8] ++
      (f.covered m ++ f.checkBytes m).flatMap (fun b => if b = 0xE7#8 then [0xE7#8, 0xE7#8] else [b]) ∧
    (f = .abort → f.covered m = [] ∧ f.checkBytes m = []) ∧
    (f ≠ .abort → f.checkBytes m =
      [(checkCode (f.covered m)).extractLsb' 8 8, (checkCode (f.covered m)).extractLsb' 0 8]) ∧
    (f.lineBytes m).length = f.byteLength + (f.covered m ++ f.checkBytes m).count 0xE7#8 ∧
    f.byteLength = match f with
      | .cycleStart _ => 12
      | .record r => 10 + r.length
      | .withdrawal _ => 8
      | .cycleEnd _ => 9
      | .abort => 2) ∧
  checkCode [] = 0xFFFF#16 ∧
  (∀ (bytes : List Byte) (b : Byte),
    let bit := fun (r : Word16) (i : Nat) =>
      if (b.getLsbD i ^^ r.getLsbD 15) = true then (r <<< 1) ^^^ 0x8BB7#16 else r <<< 1
    checkCode (bytes ++ [b]) = bit (bit (bit (bit (bit (bit (bit (bit (checkCode bytes) 7) 6) 5) 4) 3) 2) 1) 0) ∧
  (∀ (m : Memory) (x : CycleStartFrame), ∃ g : Byte, (AirFrame.cycleStart x).covered m =
      [x.cycle.extractLsb' 8 8, x.cycle.extractLsb' 0 8, x.generation.extractLsb' 8 8, x.generation.extractLsb' 0 8,
       BitVec.ofNat 8 (x.liveCount / 256), BitVec.ofNat 8 x.liveCount, BitVec.ofNat 8 x.carryCount, g] ∧
    g.getLsbD 0 = x.first ∧ g.getLsbD 1 = x.truncatedPrevious ∧ ∀ i, 2 ≤ i → g.getLsbD i = false) ∧
  (∀ (m : Memory) (x : RecordFrame), ∃ (g : Byte) (payload : List Byte), (AirFrame.record x).covered m =
      [x.key.extractLsb' 8 8, x.key.extractLsb' 0 8, x.version, g,
       BitVec.ofNat 8 (x.length / 256), BitVec.ofNat 8 x.length] ++ payload ∧
    g.extractLsb' 0 2 = BitVec.ofNat 2 x.cls ∧ g.getLsbD 2 = decide (x.kind = .feed) ∧ g.getLsbD 3 = x.stale ∧
    (∀ i, 4 ≤ i → g.getLsbD i = false) ∧ payload.length = x.length ∧
    ∀ i b, i < x.length → x.chain[i / 32]? = some b → payload[i]? = some (m.read (32 * b + i % 32))) ∧
  (∀ (m : Memory) (x : WithdrawalFrame), (AirFrame.withdrawal x).covered m =
      [x.key.extractLsb' 8 8, x.key.extractLsb' 0 8, x.version, BitVec.ofNat 8 x.after]) ∧
  (∀ (m : Memory) (x : CycleEndFrame), ∃ g : Byte, (AirFrame.cycleEnd x).covered m =
      [x.cycle.extractLsb' 8 8, x.cycle.extractLsb' 0 8, x.frames.extractLsb' 8 8, x.frames.extractLsb' 0 8, g] ∧
    g.getLsbD 0 = x.truncated ∧ ∀ i, 1 ≤ i → g.getLsbD i = false) ∧
  ∀ (b : Byte) (i : Nat), i < 8 → (txdBits b)[i]? = some (b.getLsbD i)

/-- From a frame's start the line carries, byte-time by byte-time, exactly the bytes of the frame: marker, type, fields or payload and
check code, each 0xE7 after the type sent twice (R21, R125, R126, R128). A frame that waits for the byte boundary comes behind the bytes
still to be finished, and is on air from its marker on (R89, R90, R127). After i byte-times the bytes that the row of the frame's end puts
on the line before it ends the frame are all the rest (R127). CYC, where it is
high at the start, is low from the second byte on (R108, R129). That a step on an empty queue is one byte-time is log 6, and that the row of
the frame's end stands for the byte-times up to it is log 7. -/
def Obligations.LineCarriesTheFrame : Prop :=
  (∀ (s : State) (f : AirFrame), s.pending = [] → s.link.state = .running → s.engine.onAir = some f →
    s.encoder = { waiting := none, place := 0, pairFirst := false, crc := 0xFFFF#16, gap := 0 } →
      (∀ (i : Nat) (b : Byte), (f.lineBytes s.pool.mem)[i]? = some b →
        ∃ t : State, core.run i s = .next t ∧ t.txdByte = some b) ∧
      ∀ i, i ≤ (f.lineBytes s.pool.mem).length →
        ∃ t : State, core.run i s = .next t ∧ t.bytesToFrameEnd = (f.lineBytes s.pool.mem).drop i ∧
          t = { s with
            line := t.line, encoder := t.encoder, link := { s.link with cyc := if i = 0 then s.link.cyc else false } }) ∧
  ∀ (s : State) (w : Waiting), s.pending = [] → s.link.state = .running → s.engine.onAir = none →
    s.encoder.waiting = some w → w.lead ≠ [] →
      (∀ (i : Nat) (b : Byte), (w.lead ++ w.frame.lineBytes s.pool.mem)[i]? = some b →
        ∃ t : State, core.run i s = .next t ∧ t.txdByte = some b ∧
          t.engine.onAir = if i < w.lead.length then none else some w.frame) ∧
      ∀ i, i ≤ (w.lead ++ w.frame.lineBytes s.pool.mem).length →
        ∃ t : State, core.run i s = .next t ∧ t.bytesToFrameEnd = (w.lead ++ w.frame.lineBytes s.pool.mem).drop i

/-! ## Invariants -/

/-- Every step keeps the directory in strictly ascending key order, within 256 entries, every key valid (R1, R7). -/
def Obligations.StepKeepsTheDirectory : Prop :=
  ∀ s t : State, s.directoryOk → step s = .next t → t.directoryOk

/-- Every step keeps each of the 2,048 blocks in exactly one place (R19). -/
def Obligations.StepKeepsTheBlocks : Prop :=
  ∀ s t : State, s.directoryOk → s.blocksOk → step s = .next t → t.blocksOk

/-- Every step keeps slots and entries naming each other, and each session's chains and fill in range (R11, R21, R32, R33). -/
def Obligations.StepKeepsTheSessions : Prop :=
  ∀ s t : State, s.directoryOk → s.sessionsOk → s.bindingOk → step s = .next t → t.sessionsOk ∧ t.bindingOk

/-- Every step keeps each entry's fields as its state gives them (R4, R5, R8, R11, R16, R17, R94, R133). -/
def Obligations.StepKeepsTheEntries : Prop :=
  ∀ s t : State, s.directoryOk → s.sessionsOk → s.paramsOk → s.entriesOk → step s = .next t → t.paramsOk ∧ t.entriesOk

/-- Every step keeps the on-air hold's promise: it holds only the chain of the Record frame on air, and while it is empty that chain is
its entry's front chain (R28, R29). -/
def Obligations.StepKeepsTheHold : Prop :=
  ∀ s t : State, s.directoryOk → s.LinkOk → s.EngineOk → s.HoldOk → step s = .next t → t.HoldOk

/-- Every step keeps the link controller's promise: frames, an open cycle, a stop point only in RUNNING, each timer only in its state, the
cause only in FAULT; a CLEAR in progress only in HALTED or FAULT; and CYC high only while a Cycle Start frame's marker is on the line, and
then always (R107, R108, R118, R129, R157). -/
def Obligations.StepKeepsTheLink : Prop :=
  ∀ s t : State, s.EngineOk → s.LinkOk → step s = .next t → t.LinkOk ∧ (s.clearOk → t.clearOk ∧ (s.CycOk → t.CycOk))

/-- Every step keeps the engine's promise (R70, R75, R76, R85): the frame on air suits the phase, no key stands twice in the queue, every
queued key and the key on air have a LIVE or WITHDRAWING entry (R81); so the queue never holds more than 256 keys. -/
def Obligations.StepKeepsTheEngine : Prop :=
  ∀ s t : State, s.directoryOk → s.EngineOk → s.QueueOk → step s = .next t →
    t.EngineOk ∧ t.QueueOk ∧ t.engine.queue.length ≤ 256

/-- Every step keeps the pool's contents in canonical form (the model's form, log 10). -/
def Obligations.StepKeepsTheMemoryForm : Prop :=
  ∀ s t : State, s.pool.mem.wf → step s = .next t → t.pool.mem.wf

/-- State.reset keeps every one of these promises. -/
def Obligations.ResetKeepsEveryPromise : Prop :=
  State.reset.directoryOk ∧ State.reset.blocksOk ∧ State.reset.sessionsOk ∧ State.reset.bindingOk ∧
    State.reset.paramsOk ∧ State.reset.entriesOk ∧ State.reset.HoldOk ∧ State.reset.LinkOk ∧ State.reset.clearOk ∧
    State.reset.CycOk ∧ State.reset.EngineOk ∧ State.reset.QueueOk ∧ State.reset.pool.mem.wf

end
end

