-- ==== Sys2Proof/Laws/Directory.lean ====
section
/-! SUPPORT. The directory's operations: what each does to the entries, the order and the count. -/

namespace Sys2Proof.Machine

/-- Keys in strictly ascending order (R7). -/
abbrev Directory.sorted (d : Directory) : Prop := d.Pairwise (fun a b => a.key < b.key)

theorem Directory.entryOf_key {d : Directory} {k : Key} {e : Entry} (h : d.entryOf k = some e) : e.key = k := by
  have := List.find?_some h
  simpa using this

theorem Directory.entryOf_mem {d : Directory} {k : Key} {e : Entry} (h : d.entryOf k = some e) : e ∈ d :=
  List.mem_of_find?_eq_some h

theorem Directory.entryOf_eq_none {d : Directory} {k : Key} : d.entryOf k = none ↔ ∀ e ∈ d, e.key ≠ k := by
  simp [Directory.entryOf, List.find?_eq_none]

/-- In a sorted directory an entry is the one its key finds. -/
theorem Directory.entryOf_of_mem {d : Directory} (hs : d.sorted) {e : Entry} (h : e ∈ d) : d.entryOf e.key = some e := by
  induction d with
  | nil => simp at h
  | cons x d ih =>
    have hx := (List.pairwise_cons.mp hs).1
    rcases List.mem_cons.mp h with h | h
    · simp [Directory.entryOf, h]
    · have hne : x.key ≠ e.key := fun c => absurd (hx e h) (by simp [c])
      have := ih (List.pairwise_cons.mp hs).2 h
      simpa [Directory.entryOf, List.find?_cons, hne] using this

theorem Directory.mem_insert {d : Directory} {e x : Entry} (h : x ∈ d.insert e) : x = e ∨ x ∈ d := by
  induction d with
  | nil => simpa [Directory.insert] using h
  | cons y d ih =>
    unfold Directory.insert at h
    split at h
    · simpa using h
    · split at h
      · rcases List.mem_cons.mp h with h | h
        · exact Or.inl h
        · exact Or.inr (List.mem_cons_of_mem _ h)
      · rcases List.mem_cons.mp h with h | h
        · exact Or.inr (h ▸ List.mem_cons_self ..)
        · rcases ih h with h | h
          · exact Or.inl h
          · exact Or.inr (List.mem_cons_of_mem _ h)

/-- Inserting keeps the order (R7). -/
theorem Directory.insert_sorted {d : Directory} (hs : d.sorted) (e : Entry) : (d.insert e).sorted := by
  induction d with
  | nil => simp [Directory.insert, Directory.sorted]
  | cons y d ih =>
    have hy := (List.pairwise_cons.mp hs).1
    have hd := (List.pairwise_cons.mp hs).2
    unfold Directory.insert
    split
    · rename_i hlt
      refine List.pairwise_cons.mpr ⟨fun z hz => ?_, hs⟩
      rcases List.mem_cons.mp hz with hz | hz
      · simpa [hz] using hlt
      · exact BitVec.lt_trans hlt (hy z hz)
    · split
      · rename_i heq
        exact List.pairwise_cons.mpr ⟨fun z hz => by simpa [heq] using hy z hz, hd⟩
      · rename_i hlt hne
        refine List.pairwise_cons.mpr ⟨fun z hz => ?_, ih hd⟩
        rcases Directory.mem_insert hz with hz | hz
        · subst hz
          have hn : ¬ z.key.toNat < y.key.toNat := by simpa [BitVec.lt_def] using hlt
          have hm : z.key.toNat ≠ y.key.toNat := fun c => hne (BitVec.eq_of_toNat_eq c)
          rw [BitVec.lt_def]
          omega
        · exact hy z hz

/-- Inserting a key the directory lacks adds one entry. -/
theorem Directory.insert_length {d : Directory} {e : Entry} (h : d.entryOf e.key = none) :
    (d.insert e).length = d.length + 1 := by
  induction d with
  | nil => rfl
  | cons y d ih =>
    rw [Directory.entryOf_eq_none] at h
    have hy : e.key ≠ y.key := fun c => h y (by simp) c.symm
    unfold Directory.insert
    simp only [hy, if_false]
    split
    · simp
    · simp [ih (Directory.entryOf_eq_none.mpr (fun x hx => h x (by simp [hx])))]

/-- The inserted entry is the one its key finds. -/
theorem Directory.entryOf_insert_same (d : Directory) (e : Entry) : (d.insert e).entryOf e.key = some e := by
  induction d with
  | nil => simp [Directory.insert, Directory.entryOf]
  | cons y d ih =>
    unfold Directory.insert
    split
    · simp [Directory.entryOf]
    · split
      · simp [Directory.entryOf]
      · rename_i hne
        simpa [Directory.entryOf, List.find?_cons, Ne.symm hne] using ih

/-- Every other key finds what it found before an insertion. -/
theorem Directory.entryOf_insert_other (d : Directory) (e : Entry) {k : Key} (hk : k ≠ e.key) :
    (d.insert e).entryOf k = d.entryOf k := by
  induction d with
  | nil => simp [Directory.insert, Directory.entryOf, Ne.symm hk]
  | cons y d ih =>
    unfold Directory.insert
    split
    · simp [Directory.entryOf, List.find?_cons, Ne.symm hk]
    · split
      · rename_i heq
        simp [Directory.entryOf, ← heq, Ne.symm hk]
      · simp only [Directory.entryOf, List.find?_cons] at ih ⊢
        split
        · rfl
        · exact ih

@[simp] theorem Directory.update_length (d : Directory) (k : Key) (f : Entry → Entry) : (d.update k f).length = d.length := by
  simp [Directory.update]

/-- An update whose function keeps keys keeps the order. -/
theorem Directory.update_sorted {d : Directory} (hs : d.sorted) (k : Key) (f : Entry → Entry) (hf : ∀ e, (f e).key = e.key) :
    (d.update k f).sorted := by
  unfold Directory.update Directory.sorted
  rw [List.pairwise_map]
  refine hs.imp (fun {a b} h => ?_)
  have key_eq : ∀ e : Entry, (if e.key = k then f e else e).key = e.key := fun e => by split <;> simp [hf]
  rw [key_eq, key_eq]
  exact h

/-- The updated key finds the changed entry. -/
theorem Directory.entryOf_update_same (d : Directory) (k : Key) (f : Entry → Entry) (hf : ∀ e, (f e).key = e.key) :
    (d.update k f).entryOf k = (d.entryOf k).map f := by
  unfold Directory.update Directory.entryOf
  induction d with
  | nil => rfl
  | cons y d ih =>
    by_cases h : y.key = k
    · simp [h, hf]
    · simpa [List.find?_cons, h] using ih

/-- Every other key finds what it found before an update. -/
theorem Directory.entryOf_update_other (d : Directory) {k k' : Key} (f : Entry → Entry) (hf : ∀ e, (f e).key = e.key)
    (hk : k' ≠ k) : (d.update k f).entryOf k' = d.entryOf k' := by
  unfold Directory.update Directory.entryOf
  induction d with
  | nil => rfl
  | cons y d ih =>
    by_cases h : y.key = k
    · have hy : ¬ y.key = k' := fun c => hk (c.symm.trans h)
      simpa [List.find?_cons, h, hf, Ne.symm hk] using ih
    · simp only [List.map_cons, h, if_false, List.find?_cons]
      split
      · rfl
      · exact ih

theorem Directory.remove_sorted {d : Directory} (hs : d.sorted) (k : Key) : (d.remove k).sorted := hs.filter _

theorem Directory.remove_length_le (d : Directory) (k : Key) : (d.remove k).length ≤ d.length := List.length_filter_le ..

/-- A removed key finds no entry. -/
theorem Directory.entryOf_remove_same (d : Directory) (k : Key) : (d.remove k).entryOf k = none := by
  rw [Directory.entryOf_eq_none]
  intro e he
  simpa using (List.mem_filter.mp he).2

/-- Every other key finds what it found before a removal. -/
theorem Directory.entryOf_remove_other (d : Directory) {k k' : Key} (hk : k' ≠ k) :
    (d.remove k).entryOf k' = d.entryOf k' := by
  unfold Directory.remove Directory.entryOf
  induction d with
  | nil => rfl
  | cons y d ih =>
    by_cases h : y.key = k
    · simpa [List.filter_cons, h, List.find?_cons, Ne.symm hk] using ih
    · simp only [List.filter_cons, bne_iff_ne, ne_eq, h, not_false_eq_true, if_true, List.find?_cons]
      split
      · rfl
      · exact ih

end Sys2Proof.Machine
end

