-- ==== Sys2Proof/Laws/Memory.lean ====
section
/-! SUPPORT. The pool's contents: every write keeps the canonical form, a written byte reads back, every other byte reads as
before; the same for the payload of a chain. -/

namespace Sys2Proof.Machine

theorem Memory.read_of_all_above : ∀ (m : Memory) (a : Nat), (∀ d ∈ m, a < d.1) → m.read a = Config.unwrittenByte
  | [], _, _ => rfl
  | (x, v) :: m, a, h => by
    have hx : a < x := h (x, v) (by simp)
    have hne : x ≠ a := by omega
    simp only [Memory.read, hne, if_false]
    exact Memory.read_of_all_above m a (fun d hd => h d (by simp [hd]))

theorem Memory.mem_write (a : Nat) (b : Byte) :
    ∀ (m : Memory) (d : Host.Cell), d ∈ m.write a b → d ∈ m ∨ (d = (a, b) ∧ b ≠ Config.unwrittenByte)
  | [], d, h => by
    unfold Memory.write at h
    split at h <;> simp_all
  | (x, v) :: m, d, h => by
    unfold Memory.write at h
    split at h
    · split at h
      · exact Or.inl h
      · rcases List.mem_cons.mp h with h | h
        · exact Or.inr ⟨h, by assumption⟩
        · exact Or.inl h
    · split at h
      · split at h
        · exact Or.inl (List.mem_cons_of_mem _ h)
        · rcases List.mem_cons.mp h with h | h
          · exact Or.inr ⟨h, by assumption⟩
          · exact Or.inl (List.mem_cons_of_mem _ h)
      · rcases List.mem_cons.mp h with h | h
        · exact Or.inl (h ▸ List.mem_cons_self ..)
        · rcases Memory.mem_write a b m d h with h | h
          · exact Or.inl (List.mem_cons_of_mem _ h)
          · exact Or.inr h

/-- A write keeps the addresses strictly rising. -/
theorem Memory.write_sorted (a : Nat) (b : Byte) :
    ∀ m : Memory, m.Pairwise (fun c d => c.1 < d.1) → (m.write a b).Pairwise (fun c d => c.1 < d.1)
  | [], _ => by
    unfold Memory.write
    split <;> simp
  | (x, v) :: m, h => by
    have hm := (List.pairwise_cons.mp h).2
    have hx := (List.pairwise_cons.mp h).1
    unfold Memory.write
    split
    · rename_i hax
      split
      · exact h
      · refine List.pairwise_cons.mpr ⟨fun d hd => ?_, h⟩
        rcases List.mem_cons.mp hd with hd | hd
        · simpa [hd] using hax
        · exact Nat.lt_trans hax (hx d hd)
    · split
      · rename_i hax
        split
        · exact hm
        · exact List.pairwise_cons.mpr ⟨fun d hd => by simpa [hax] using hx d hd, hm⟩
      · refine List.pairwise_cons.mpr ⟨fun d hd => ?_, Memory.write_sorted a b m hm⟩
        rcases Memory.mem_write a b m d hd with hd | ⟨hd, _⟩
        · exact hx d hd
        · subst hd
          show x < a
          omega

/-- A write keeps the canonical form. -/
theorem Memory.write_wf (m : Memory) (a : Nat) (b : Byte) (h : m.wf) : (m.write a b).wf :=
  ⟨Memory.write_sorted a b m h.1, fun d hd => by
    rcases Memory.mem_write a b m d hd with hd | ⟨hd, hb⟩
    · exact h.2 d hd
    · simpa [hd] using hb⟩

/-- A written byte reads back. -/
theorem Memory.read_write_same (a : Nat) (b : Byte) :
    ∀ m : Memory, m.Pairwise (fun c d => c.1 < d.1) → (m.write a b).read a = b
  | [], _ => by
    unfold Memory.write
    split <;> simp_all [Memory.read]
  | (x, v) :: m, h => by
    have hm := (List.pairwise_cons.mp h).2
    have hx := (List.pairwise_cons.mp h).1
    unfold Memory.write
    split
    · rename_i hax
      split
      · rename_i hb
        rw [hb]
        refine Memory.read_of_all_above _ _ (fun d hd => ?_)
        rcases List.mem_cons.mp hd with hd | hd
        · simpa [hd] using hax
        · exact Nat.lt_trans hax (hx d hd)
      · simp [Memory.read]
    · split
      · rename_i hax
        split
        · rename_i hb
          rw [hb]
          exact Memory.read_of_all_above _ _ (fun d hd => by simpa [hax] using hx d hd)
        · simp [Memory.read]
      · have hne : x ≠ a := by omega
        simp only [Memory.read, hne, if_false]
        exact Memory.read_write_same a b m hm

/-- Every other byte reads as before a write. -/
theorem Memory.read_write_other (a : Nat) (b : Byte) {k : Nat} (hk : k ≠ a) :
    ∀ m : Memory, (m.write a b).read k = m.read k
  | [] => by
    unfold Memory.write
    split <;> simp [Memory.read, Ne.symm hk]
  | (x, v) :: m => by
    unfold Memory.write
    split
    · split
      · rfl
      · simp [Memory.read, Ne.symm hk]
    · split
      · rename_i hax
        split
        · simp [Memory.read, ← hax, Ne.symm hk]
        · simp [Memory.read, ← hax, Ne.symm hk]
      · simp only [Memory.read]
        rw [Memory.read_write_other a b hk m]

/-- Placing bytes into a chain keeps the canonical form. -/
theorem writePayload_wf (chain : Chain) :
    ∀ (data : List Byte) (m : Memory) (off : Nat), m.wf → (writePayload m chain off data).wf
  | [], _, _, h => h
  | b :: bs, m, off, h => by
    unfold writePayload
    split
    · exact writePayload_wf chain bs _ _ (Memory.write_wf _ _ _ h)
    · exact writePayload_wf chain bs _ _ h

/-- Bytes outside the payload bytes written read as before. -/
theorem read_writePayload_outside (chain : Chain) (a : Nat) :
    ∀ (data : List Byte) (m : Memory) (off : Nat), ¬ inPayload chain off data.length a →
      (writePayload m chain off data).read a = m.read a
  | [], _, _, _ => rfl
  | b :: bs, m, off, h => by
    have hrest : ¬ inPayload chain (off + 1) bs.length a := fun ⟨j, hj, hc⟩ =>
      h ⟨j + 1, by simpa using hj, by rw [← hc]; congr 1; omega⟩
    unfold writePayload
    split
    · rename_i x hx
      have hne : a ≠ x := fun e => h ⟨0, by simp, by simpa [e] using hx⟩
      rw [read_writePayload_outside chain a bs _ _ hrest, Memory.read_write_other _ _ hne]
    · exact read_writePayload_outside chain a bs _ _ hrest

/-- In a chain without repeats two payload bytes have different addresses. -/
theorem chainAddr_inj (chain : Chain) (hnd : chain.Nodup) {i j a : Nat} (hi : chainAddr chain i = some a)
    (hj : chainAddr chain j = some a) : i = j := by
  unfold chainAddr at hi hj
  rw [Option.map_eq_some_iff] at hi hj
  obtain ⟨b, hb, hba⟩ := hi
  obtain ⟨d, hd, hda⟩ := hj
  simp only [Config.blockBytes] at hb hd hba hda
  have h1 : b = d := by omega
  subst h1
  obtain ⟨hl1, hb⟩ := List.getElem?_eq_some_iff.mp hb
  obtain ⟨hl2, hd⟩ := List.getElem?_eq_some_iff.mp hd
  have h2 : i / 32 = j / 32 := (List.Nodup.getElem_inj_iff hnd).mp (hb.trans hd.symm)
  omega

/-- The byte with index j of the data becomes payload byte off + j (R41, R97). -/
theorem payloadByte_writePayload (chain : Chain) (hnd : chain.Nodup) :
    ∀ (data : List Byte) (m : Memory) (off j a : Nat), m.wf → (hj : j < data.length) →
      chainAddr chain (off + j) = some a → (writePayload m chain off data).read a = data[j]
  | [], _, _, _, _, _, hj, _ => absurd hj (by simp)
  | b :: bs, m, off, 0, a, hm, _, ha => by
    unfold writePayload
    simp only [Nat.add_zero] at ha
    simp only [ha]
    rw [read_writePayload_outside chain a bs _ _ (fun ⟨j, _, hj⟩ => by
      have := chainAddr_inj chain hnd ha hj
      omega)]
    exact Memory.read_write_same a b m hm.1
  | b :: bs, m, off, j + 1, a, hm, hj, ha => by
    have ha' : chainAddr chain (off + 1 + j) = some a := by
      rw [← ha]; congr 1; omega
    unfold writePayload
    split
    · exact payloadByte_writePayload chain hnd bs _ _ j a (Memory.write_wf _ _ _ hm) (by simpa using hj) ha'
    · exact payloadByte_writePayload chain hnd bs _ _ j a hm (by simpa using hj) ha'

end Sys2Proof.Machine
end

