-- ==== Sys2Proof/Laws/PerInstr.lean ====
section
/-! SUPPORT. Statements about every row of the command table, one lemma per constructor. -/

namespace Sys2Proof.Laws.FrameCode

/-- A well-formed row that carries a command code carries one of the command table exactly when it is not UNKNOWN (R149, R158). -/
def Statement (i : Instr) : Prop :=
  i.wellFormed = true → ∀ code ∈ i.code, commandCodes.contains code = true ↔ ∀ args, i ≠ .unknown code args

theorem of_no_code {i : Instr} (h : i.code = none) : Statement i :=
  fun _ _ hc => by simp [h] at hc

theorem of_table_code {i : Instr} {table : Byte} (h : i.code = some table) (ht : commandCodes.contains table = true)
    (hu : ∀ code args, i ≠ .unknown code args) : Statement i :=
  fun _ code hc => ⟨fun _ => hu code, fun _ => Option.some.inj (h.symm.trans hc) ▸ ht⟩

theorem powerOnReset : Statement .powerOnReset := of_no_code rfl
theorem powerOnInitialisation : Statement .powerOnInitialisation := of_no_code rfl
theorem initialisationEnd : Statement .initialisationEnd := of_no_code rfl
theorem emptyTransaction (edge : CsnEdge) : Statement (.emptyTransaction edge) := of_no_code rfl
theorem unknown (code : Byte) (args : List Byte) : Statement (.unknown code args) := by
  simp [Statement, Instr.wellFormed, Instr.code]
theorem status (args : List Byte) : Statement (.status args) := of_table_code rfl rfl nofun
theorem result (args : List Byte) : Statement (.result args) := of_table_code rfl rfl nofun
theorem stop (args : List Byte) : Statement (.stop args) := of_table_code rfl rfl nofun
theorem openSession (args : List Byte) : Statement (.openSession args) := of_table_code rfl rfl nofun
theorem write (args : List Byte) : Statement (.write args) := of_table_code rfl rfl nofun
theorem commit (args : List Byte) : Statement (.commit args) := of_table_code rfl rfl nofun
theorem cancel (args : List Byte) : Statement (.cancel args) := of_table_code rfl rfl nofun
theorem retire (args : List Byte) : Statement (.retire args) := of_table_code rfl rfl nofun
theorem retireGroup (args : List Byte) : Statement (.retireGroup args) := of_table_code rfl rfl nofun
theorem retireGroupVisit : Statement .retireGroupVisit := of_no_code rfl
theorem feed (args : List Byte) : Statement (.feed args) := of_table_code rfl rfl nofun
theorem read (args : List Byte) : Statement (.read args) := of_table_code rfl rfl nofun
theorem query (args : List Byte) : Statement (.query args) := of_table_code rfl rfl nofun
theorem notice (args : List Byte) : Statement (.notice args) := of_table_code rfl rfl nofun
theorem start (args : List Byte) : Statement (.start args) := of_table_code rfl rfl nofun
theorem configure (args : List Byte) : Statement (.configure args) := of_table_code rfl rfl nofun
theorem clear (args : List Byte) : Statement (.clear args) := of_table_code rfl rfl nofun
theorem clearCompletion : Statement .clearCompletion := of_no_code rfl
theorem keyUpTimerExpiry : Statement .keyUpTimerExpiry := of_no_code rfl
theorem clrAsserted : Statement .clrAsserted := of_no_code rfl
theorem clearWaitTimerExpiry : Statement .clearWaitTimerExpiry := of_no_code rfl
theorem lossOfClr : Statement .lossOfClr := of_no_code rfl
theorem pacingTimerExpiry : Statement .pacingTimerExpiry := of_no_code rfl
theorem cycleStart : Statement .cycleStart := of_no_code rfl
theorem cycleStartFrameEnd : Statement .cycleStartFrameEnd := of_no_code rfl
theorem frameChoice : Statement .frameChoice := of_no_code rfl
theorem recordFrameEnd : Statement .recordFrameEnd := of_no_code rfl
theorem withdrawalFrameEnd : Statement .withdrawalFrameEnd := of_no_code rfl
theorem cycleEndFrameEnd : Statement .cycleEndFrameEnd := of_no_code rfl
theorem abortFrameEnd : Statement .abortFrameEnd := of_no_code rfl
theorem commandCompletion : Statement .commandCompletion := of_no_code rfl
theorem clrDeassertion : Statement .clrDeassertion := of_no_code rfl
theorem cycPulseEnd : Statement .cycPulseEnd := of_no_code rfl

end Sys2Proof.Laws.FrameCode
end

