-- ==== Sys2Proof/Laws/Pool.lean ====
section
/-! SUPPORT. Conservation of blocks: what leaves an entry is in the free list or the on-air hold afterwards, and nothing else
moves (R19, R24 to R29). -/

namespace Sys2Proof.Machine

/-- The blocks the pool itself holds: the free list, then the chain in the hold. -/
def Pool.held (p : Pool) : List Block := p.free ++ p.hold.getD []

@[simp] theorem Pool.release_mem (p : Pool) (c : Chain) : (p.release c).mem = p.mem := rfl
@[simp] theorem Pool.release_hold (p : Pool) (c : Chain) : (p.release c).hold = p.hold := rfl
@[simp] theorem Pool.release_free (p : Pool) (c : Chain) : (p.release c).free = p.free ++ c := rfl

theorem Pool.release_held (p : Pool) (c : Chain) : (p.release c).held.Perm (p.held ++ c) := by
  simp only [Pool.held, Pool.release_free, Pool.release_hold, List.append_assoc]
  exact List.Perm.append_left _ List.perm_append_comm

@[simp] theorem Pool.releaseHold_mem (p : Pool) : p.releaseHold.mem = p.mem := by
  unfold Pool.releaseHold; split <;> rfl

@[simp] theorem Pool.releaseHold_hold (p : Pool) : p.releaseHold.hold = none := by
  unfold Pool.releaseHold; split
  · rfl
  · assumption

@[simp] theorem Pool.releaseHold_free (p : Pool) : p.releaseHold.free = p.free ++ p.hold.getD [] := by
  unfold Pool.releaseHold; split <;> simp [*]

theorem Pool.releaseHold_held (p : Pool) : p.releaseHold.held = p.held := by simp [Pool.held]

@[simp] theorem Pool.displaceFront_mem (p : Pool) (onAir : Option AirFrame) (key : Key) (c : Chain) :
    (p.displaceFront onAir key c).mem = p.mem := by
  unfold Pool.displaceFront; split <;> rfl

/-- A displaced front chain is in the hold or at the tail of the free list. -/
theorem Pool.displaceFront_held (p : Pool) (onAir : Option AirFrame) (key : Key) (c : Chain) :
    (p.displaceFront onAir key c).held.Perm (p.held ++ c) := by
  unfold Pool.displaceFront
  split
  · rename_i h
    have hn : p.hold = none := by simpa using (Bool.and_eq_true_iff.mp h).2
    simp [Pool.held, hn]
  · exact Pool.release_held p c

@[simp] theorem Pool.displace_mem (p : Pool) (onAir : Option AirFrame) (key : Key) (v : Live) :
    (p.displace onAir key v).mem = p.mem := by
  unfold Pool.displace; split <;> simp

/-- Both chains of a LIVE entry stay in the pool when they leave it. -/
theorem Pool.displace_held (p : Pool) (onAir : Option AirFrame) (key : Key) (v : Live) :
    (p.displace onAir key v).held.Perm (p.held ++ (Body.live v).front ++ (Body.live v).back) := by
  have hb : (Body.live v).back = (match v.feed with | some f => f.back | none => []) := rfl
  rw [hb]
  unfold Pool.displace Body.front
  cases h : v.feed with
  | none => simpa using p.displaceFront_held onAir key v.front
  | some f => exact (Pool.release_held _ _).trans ((p.displaceFront_held onAir key v.front).append_right f.back)

@[simp] theorem Pool.displaceBody_mem (p : Pool) (onAir : Option AirFrame) (key : Key) (b : Body) :
    (p.displaceBody onAir key b).mem = p.mem := by
  unfold Pool.displaceBody; split <;> simp

/-- The chains of any body stay in the pool when they leave it. -/
theorem Pool.displaceBody_held (p : Pool) (onAir : Option AirFrame) (key : Key) (b : Body) :
    (p.displaceBody onAir key b).held.Perm (p.held ++ b.front ++ b.back) := by
  unfold Pool.displaceBody
  split
  · exact p.displace_held onAir key _
  · rename_i h
    have hf : b.front = [] := by
      cases b <;> first | rfl | exact absurd rfl (h _)
    have hb : b.back = [] := by
      cases b <;> first | rfl | exact absurd rfl (h _)
    simp [hf, hb]

/-- The blocks an OPEN takes are the ones that leave the free list (R22). -/
theorem openedSession_chains (key : Key) (kind : Kind) (cls length : Nat) (free : List Block) :
    (openedSession key kind cls length free).chains ++ free.drop (blocksTaken kind length) = free := by
  cases kind with
  | stored => simp [openedSession, Session.chains, blocksTaken]
  | feed =>
    have h : 2 * blocksFor length = blocksFor length + blocksFor length := by omega
    simp only [openedSession, Session.chains, blocksTaken, Option.getD_some, h, List.append_assoc]
    rw [← List.drop_drop, List.take_append_drop, List.take_append_drop]

end Sys2Proof.Machine
end

