-- ==== Sys2Proof/Laws/State.lean ====
section
/-! SUPPORT. One lemma per field per shared update: what each shared operation leaves as it was, and what it sets. A later proof
cites these and does not unfold a record update. -/

namespace Sys2Proof.Machine

variable (s : State)

/-! ## What each update leaves -/

@[simp] theorem State.beginFrame_rstn (f : AirFrame) : (s.beginFrame f).rstn = s.rstn := rfl
@[simp] theorem State.beginFrame_line (f : AirFrame) : (s.beginFrame f).line = s.line := rfl
@[simp] theorem State.beginFrame_dir (f : AirFrame) : (s.beginFrame f).dir = s.dir := rfl
@[simp] theorem State.beginFrame_pool (f : AirFrame) : (s.beginFrame f).pool = s.pool := rfl
@[simp] theorem State.beginFrame_slots (f : AirFrame) : (s.beginFrame f).slots = s.slots := rfl
@[simp] theorem State.beginFrame_link (f : AirFrame) : (s.beginFrame f).link = s.link := rfl
@[simp] theorem State.beginFrame_notice (f : AirFrame) : (s.beginFrame f).notice = s.notice := rfl
@[simp] theorem State.beginFrame_port (f : AirFrame) : (s.beginFrame f).port = s.port := rfl
@[simp] theorem State.beginFrame_params (f : AirFrame) : (s.beginFrame f).params = s.params := rfl
@[simp] theorem State.beginFrame_freeCount (f : AirFrame) : (s.beginFrame f).freeCount = s.freeCount := rfl
@[simp] theorem State.beginFrame_pending (f : AirFrame) : (s.beginFrame f).pending = s.pending := rfl

@[simp] theorem State.beginFrameAfter_rstn (lead : List Byte) (f : AirFrame) : (s.beginFrameAfter lead f).rstn = s.rstn := by
  unfold State.beginFrameAfter; split <;> rfl
@[simp] theorem State.beginFrameAfter_line (lead : List Byte) (f : AirFrame) : (s.beginFrameAfter lead f).line = s.line := by
  unfold State.beginFrameAfter; split <;> rfl
@[simp] theorem State.beginFrameAfter_dir (lead : List Byte) (f : AirFrame) : (s.beginFrameAfter lead f).dir = s.dir := by
  unfold State.beginFrameAfter; split <;> rfl
@[simp] theorem State.beginFrameAfter_pool (lead : List Byte) (f : AirFrame) : (s.beginFrameAfter lead f).pool = s.pool := by
  unfold State.beginFrameAfter; split <;> rfl
@[simp] theorem State.beginFrameAfter_slots (lead : List Byte) (f : AirFrame) : (s.beginFrameAfter lead f).slots = s.slots := by
  unfold State.beginFrameAfter; split <;> rfl
@[simp] theorem State.beginFrameAfter_link (lead : List Byte) (f : AirFrame) : (s.beginFrameAfter lead f).link = s.link := by
  unfold State.beginFrameAfter; split <;> rfl
@[simp] theorem State.beginFrameAfter_notice (lead : List Byte) (f : AirFrame) : (s.beginFrameAfter lead f).notice = s.notice := by
  unfold State.beginFrameAfter; split <;> rfl
@[simp] theorem State.beginFrameAfter_port (lead : List Byte) (f : AirFrame) : (s.beginFrameAfter lead f).port = s.port := by
  unfold State.beginFrameAfter; split <;> rfl
@[simp] theorem State.beginFrameAfter_params (lead : List Byte) (f : AirFrame) : (s.beginFrameAfter lead f).params = s.params := by
  unfold State.beginFrameAfter; split <;> rfl
@[simp] theorem State.beginFrameAfter_freeCount (lead : List Byte) (f : AirFrame) : (s.beginFrameAfter lead f).freeCount = s.freeCount := by
  unfold State.beginFrameAfter; split <;> rfl
@[simp] theorem State.beginFrameAfter_pending (lead : List Byte) (f : AirFrame) : (s.beginFrameAfter lead f).pending = s.pending := by
  unfold State.beginFrameAfter; split <;> rfl

/-! CYC falls: the pin alone. -/

@[simp] theorem State.cycFalls_rstn : s.cycFalls.rstn = s.rstn := rfl
@[simp] theorem State.cycFalls_dir : s.cycFalls.dir = s.dir := rfl
@[simp] theorem State.cycFalls_pool : s.cycFalls.pool = s.pool := rfl
@[simp] theorem State.cycFalls_slots : s.cycFalls.slots = s.slots := rfl
@[simp] theorem State.cycFalls_engine : s.cycFalls.engine = s.engine := rfl
@[simp] theorem State.cycFalls_encoder : s.cycFalls.encoder = s.encoder := rfl
@[simp] theorem State.cycFalls_line : s.cycFalls.line = s.line := rfl
@[simp] theorem State.cycFalls_notice : s.cycFalls.notice = s.notice := rfl
@[simp] theorem State.cycFalls_port : s.cycFalls.port = s.port := rfl
@[simp] theorem State.cycFalls_params : s.cycFalls.params = s.params := rfl
@[simp] theorem State.cycFalls_freeCount : s.cycFalls.freeCount = s.freeCount := rfl
@[simp] theorem State.cycFalls_pending : s.cycFalls.pending = s.pending := rfl
@[simp] theorem State.cycFalls_link : s.cycFalls.link = { s.link with cyc := false } := rfl

@[simp] theorem State.sendToFrameEnd_rstn : s.sendToFrameEnd.rstn = s.rstn := rfl
@[simp] theorem State.sendToFrameEnd_dir : s.sendToFrameEnd.dir = s.dir := rfl
@[simp] theorem State.sendToFrameEnd_pool : s.sendToFrameEnd.pool = s.pool := rfl
@[simp] theorem State.sendToFrameEnd_slots : s.sendToFrameEnd.slots = s.slots := rfl
@[simp] theorem State.sendToFrameEnd_link : s.sendToFrameEnd.link = { s.link with cyc := false } := rfl
@[simp] theorem State.sendToFrameEnd_notice : s.sendToFrameEnd.notice = s.notice := rfl
@[simp] theorem State.sendToFrameEnd_port : s.sendToFrameEnd.port = s.port := rfl
@[simp] theorem State.sendToFrameEnd_params : s.sendToFrameEnd.params = s.params := rfl
@[simp] theorem State.sendToFrameEnd_freeCount : s.sendToFrameEnd.freeCount = s.freeCount := rfl
@[simp] theorem State.sendToFrameEnd_pending : s.sendToFrameEnd.pending = s.pending := rfl
@[simp] theorem State.sendToFrameEnd_engine : s.sendToFrameEnd.engine = s.engine := rfl
@[simp] theorem State.sendToFrameEnd_encoder : s.sendToFrameEnd.encoder = s.encoder := rfl

@[simp] theorem State.sendGap_rstn : s.sendGap.rstn = s.rstn := rfl
@[simp] theorem State.sendGap_dir : s.sendGap.dir = s.dir := rfl
@[simp] theorem State.sendGap_pool : s.sendGap.pool = s.pool := rfl
@[simp] theorem State.sendGap_slots : s.sendGap.slots = s.slots := rfl
@[simp] theorem State.sendGap_link : s.sendGap.link = s.link := rfl
@[simp] theorem State.sendGap_notice : s.sendGap.notice = s.notice := rfl
@[simp] theorem State.sendGap_port : s.sendGap.port = s.port := rfl
@[simp] theorem State.sendGap_params : s.sendGap.params = s.params := rfl
@[simp] theorem State.sendGap_freeCount : s.sendGap.freeCount = s.freeCount := rfl
@[simp] theorem State.sendGap_pending : s.sendGap.pending = s.pending := rfl
@[simp] theorem State.sendGap_engine : s.sendGap.engine = s.engine := rfl

@[simp] theorem State.finishLead_rstn (w : Waiting) : (s.finishLead w).rstn = s.rstn := by
  unfold State.finishLead; simp
@[simp] theorem State.finishLead_dir (w : Waiting) : (s.finishLead w).dir = s.dir := by
  unfold State.finishLead; simp
@[simp] theorem State.finishLead_pool (w : Waiting) : (s.finishLead w).pool = s.pool := by
  unfold State.finishLead; simp
@[simp] theorem State.finishLead_slots (w : Waiting) : (s.finishLead w).slots = s.slots := by
  unfold State.finishLead; simp
@[simp] theorem State.finishLead_link (w : Waiting) : (s.finishLead w).link = s.link := by
  unfold State.finishLead; simp
@[simp] theorem State.finishLead_notice (w : Waiting) : (s.finishLead w).notice = s.notice := by
  unfold State.finishLead; simp
@[simp] theorem State.finishLead_port (w : Waiting) : (s.finishLead w).port = s.port := by
  unfold State.finishLead; simp
@[simp] theorem State.finishLead_params (w : Waiting) : (s.finishLead w).params = s.params := by
  unfold State.finishLead; simp
@[simp] theorem State.finishLead_freeCount (w : Waiting) : (s.finishLead w).freeCount = s.freeCount := by
  unfold State.finishLead; simp
@[simp] theorem State.finishLead_pending (w : Waiting) : (s.finishLead w).pending = s.pending := by
  unfold State.finishLead; simp

@[simp] theorem State.endFrame_rstn (gap : Nat) : (s.endFrame gap).rstn = s.rstn := rfl
@[simp] theorem State.endFrame_line (gap : Nat) : (s.endFrame gap).line = s.line := rfl
@[simp] theorem State.endFrame_dir (gap : Nat) : (s.endFrame gap).dir = s.dir := rfl
@[simp] theorem State.endFrame_pool (gap : Nat) : (s.endFrame gap).pool = s.pool := rfl
@[simp] theorem State.endFrame_slots (gap : Nat) : (s.endFrame gap).slots = s.slots := rfl
@[simp] theorem State.endFrame_link (gap : Nat) : (s.endFrame gap).link = s.link := rfl
@[simp] theorem State.endFrame_notice (gap : Nat) : (s.endFrame gap).notice = s.notice := rfl
@[simp] theorem State.endFrame_port (gap : Nat) : (s.endFrame gap).port = s.port := rfl
@[simp] theorem State.endFrame_params (gap : Nat) : (s.endFrame gap).params = s.params := rfl
@[simp] theorem State.endFrame_freeCount (gap : Nat) : (s.endFrame gap).freeCount = s.freeCount := rfl
@[simp] theorem State.endFrame_pending (gap : Nat) : (s.endFrame gap).pending = s.pending := rfl

@[simp] theorem State.earlyEnd_rstn : (s.earlyEnd).rstn = s.rstn := rfl
@[simp] theorem State.earlyEnd_line : (s.earlyEnd).line = s.line := rfl
@[simp] theorem State.earlyEnd_dir : (s.earlyEnd).dir = s.dir := rfl
@[simp] theorem State.earlyEnd_slots : (s.earlyEnd).slots = s.slots := rfl
@[simp] theorem State.earlyEnd_encoder : (s.earlyEnd).encoder = s.encoder := rfl
@[simp] theorem State.earlyEnd_link : (s.earlyEnd).link = s.link := rfl
@[simp] theorem State.earlyEnd_notice : (s.earlyEnd).notice = s.notice := rfl
@[simp] theorem State.earlyEnd_port : (s.earlyEnd).port = s.port := rfl
@[simp] theorem State.earlyEnd_params : (s.earlyEnd).params = s.params := rfl
@[simp] theorem State.earlyEnd_freeCount : (s.earlyEnd).freeCount = s.freeCount := rfl
@[simp] theorem State.earlyEnd_pending : (s.earlyEnd).pending = s.pending := rfl

@[simp] theorem State.truncatedEnd_rstn (lead : List Byte) : (s.truncatedEnd lead).rstn = s.rstn := by
  unfold State.truncatedEnd; simp
@[simp] theorem State.truncatedEnd_line (lead : List Byte) : (s.truncatedEnd lead).line = s.line := by
  unfold State.truncatedEnd; simp
@[simp] theorem State.truncatedEnd_dir (lead : List Byte) : (s.truncatedEnd lead).dir = s.dir := by
  unfold State.truncatedEnd; simp
@[simp] theorem State.truncatedEnd_slots (lead : List Byte) : (s.truncatedEnd lead).slots = s.slots := by
  unfold State.truncatedEnd; simp
@[simp] theorem State.truncatedEnd_link (lead : List Byte) : (s.truncatedEnd lead).link = s.link := by
  unfold State.truncatedEnd; simp
@[simp] theorem State.truncatedEnd_notice (lead : List Byte) : (s.truncatedEnd lead).notice = s.notice := by
  unfold State.truncatedEnd; simp
@[simp] theorem State.truncatedEnd_port (lead : List Byte) : (s.truncatedEnd lead).port = s.port := by
  unfold State.truncatedEnd; simp
@[simp] theorem State.truncatedEnd_params (lead : List Byte) : (s.truncatedEnd lead).params = s.params := by
  unfold State.truncatedEnd; simp
@[simp] theorem State.truncatedEnd_freeCount (lead : List Byte) : (s.truncatedEnd lead).freeCount = s.freeCount := by
  unfold State.truncatedEnd; simp
@[simp] theorem State.truncatedEnd_pending (lead : List Byte) : (s.truncatedEnd lead).pending = s.pending := by
  unfold State.truncatedEnd; simp

@[simp] theorem State.enterHalted_rstn : (s.enterHalted).rstn = s.rstn := rfl
@[simp] theorem State.enterHalted_line : (s.enterHalted).line = s.line := rfl
@[simp] theorem State.enterHalted_dir : (s.enterHalted).dir = s.dir := rfl
@[simp] theorem State.enterHalted_pool : (s.enterHalted).pool = s.pool := rfl
@[simp] theorem State.enterHalted_slots : (s.enterHalted).slots = s.slots := rfl
@[simp] theorem State.enterHalted_port : (s.enterHalted).port = s.port := rfl
@[simp] theorem State.enterHalted_params : (s.enterHalted).params = s.params := rfl
@[simp] theorem State.enterHalted_freeCount : (s.enterHalted).freeCount = s.freeCount := rfl
@[simp] theorem State.enterHalted_pending : (s.enterHalted).pending = s.pending := rfl

@[simp] theorem State.enterDormant_rstn : (s.enterDormant).rstn = s.rstn := rfl
@[simp] theorem State.enterDormant_line : (s.enterDormant).line = s.line := rfl
@[simp] theorem State.enterDormant_dir : (s.enterDormant).dir = s.dir := rfl
@[simp] theorem State.enterDormant_pool : (s.enterDormant).pool = s.pool := rfl
@[simp] theorem State.enterDormant_slots : (s.enterDormant).slots = s.slots := rfl
@[simp] theorem State.enterDormant_port : (s.enterDormant).port = s.port := rfl
@[simp] theorem State.enterDormant_params : (s.enterDormant).params = s.params := rfl
@[simp] theorem State.enterDormant_freeCount : (s.enterDormant).freeCount = s.freeCount := rfl
@[simp] theorem State.enterDormant_pending : (s.enterDormant).pending = s.pending := rfl

@[simp] theorem State.enterFault_rstn (c : FaultCause) : (s.enterFault c).rstn = s.rstn := rfl
@[simp] theorem State.enterFault_line (c : FaultCause) : (s.enterFault c).line = s.line := rfl
@[simp] theorem State.enterFault_dir (c : FaultCause) : (s.enterFault c).dir = s.dir := rfl
@[simp] theorem State.enterFault_pool (c : FaultCause) : (s.enterFault c).pool = s.pool := rfl
@[simp] theorem State.enterFault_slots (c : FaultCause) : (s.enterFault c).slots = s.slots := rfl
@[simp] theorem State.enterFault_port (c : FaultCause) : (s.enterFault c).port = s.port := rfl
@[simp] theorem State.enterFault_params (c : FaultCause) : (s.enterFault c).params = s.params := rfl
@[simp] theorem State.enterFault_freeCount (c : FaultCause) : (s.enterFault c).freeCount = s.freeCount := rfl
@[simp] theorem State.enterFault_pending (c : FaultCause) : (s.enterFault c).pending = s.pending := rfl

@[simp] theorem State.finishFill_rstn : s.finishFill.rstn = s.rstn := rfl
@[simp] theorem State.finishFill_line : s.finishFill.line = s.line := rfl
@[simp] theorem State.finishFill_dir : s.finishFill.dir = s.dir := rfl
@[simp] theorem State.finishFill_pool : s.finishFill.pool = s.pool := rfl
@[simp] theorem State.finishFill_slots : s.finishFill.slots = s.slots := rfl
@[simp] theorem State.finishFill_engine : s.finishFill.engine = s.engine := rfl
@[simp] theorem State.finishFill_link : s.finishFill.link = s.link := rfl
@[simp] theorem State.finishFill_notice : s.finishFill.notice = s.notice := rfl
@[simp] theorem State.finishFill_port : s.finishFill.port = s.port := rfl
@[simp] theorem State.finishFill_params : s.finishFill.params = s.params := rfl
@[simp] theorem State.finishFill_freeCount : s.finishFill.freeCount = s.freeCount := rfl
@[simp] theorem State.finishFill_pending : s.finishFill.pending = s.pending := rfl

@[simp] theorem State.finishFillAt_rstn (p : BytePoint) : (s.finishFillAt p).rstn = s.rstn := by
  cases p <;> rfl
@[simp] theorem State.finishFillAt_line (p : BytePoint) : (s.finishFillAt p).line = s.line := by
  cases p <;> rfl
@[simp] theorem State.finishFillAt_dir (p : BytePoint) : (s.finishFillAt p).dir = s.dir := by
  cases p <;> rfl
@[simp] theorem State.finishFillAt_pool (p : BytePoint) : (s.finishFillAt p).pool = s.pool := by
  cases p <;> rfl
@[simp] theorem State.finishFillAt_slots (p : BytePoint) : (s.finishFillAt p).slots = s.slots := by
  cases p <;> rfl
@[simp] theorem State.finishFillAt_engine (p : BytePoint) : (s.finishFillAt p).engine = s.engine := by
  cases p <;> rfl
@[simp] theorem State.finishFillAt_link (p : BytePoint) : (s.finishFillAt p).link = s.link := by
  cases p <;> rfl
@[simp] theorem State.finishFillAt_notice (p : BytePoint) : (s.finishFillAt p).notice = s.notice := by
  cases p <;> rfl
@[simp] theorem State.finishFillAt_port (p : BytePoint) : (s.finishFillAt p).port = s.port := by
  cases p <;> rfl
@[simp] theorem State.finishFillAt_params (p : BytePoint) : (s.finishFillAt p).params = s.params := by
  cases p <;> rfl
@[simp] theorem State.finishFillAt_freeCount (p : BytePoint) : (s.finishFillAt p).freeCount = s.freeCount := by
  cases p <;> rfl
@[simp] theorem State.finishFillAt_pending (p : BytePoint) : (s.finishFillAt p).pending = s.pending := by
  cases p <;> rfl
@[simp] theorem State.finishFillAt_encoder (p : BytePoint) : (s.finishFillAt p).encoder =
    if p = .boundary then s.encoder else { s.encoder with gap := max s.encoder.gap 1 } := by
  cases p <;> rfl
/-- 0 ms after a byte boundary stands on it. -/
@[simp] theorem State.expiryPoint_zero : s.expiryPoint 0 = .boundary := by
  simp [State.expiryPoint]

@[simp] theorem State.expirePacing_rstn (ms : Nat) : (s.expirePacing ms).rstn = s.rstn := by
  unfold State.expirePacing; split <;> simp
@[simp] theorem State.expirePacing_line (ms : Nat) : (s.expirePacing ms).line = s.line := by
  unfold State.expirePacing; split <;> simp
@[simp] theorem State.expirePacing_dir (ms : Nat) : (s.expirePacing ms).dir = s.dir := by
  unfold State.expirePacing; split <;> simp
@[simp] theorem State.expirePacing_pool (ms : Nat) : (s.expirePacing ms).pool = s.pool := by
  unfold State.expirePacing; split <;> simp
@[simp] theorem State.expirePacing_slots (ms : Nat) : (s.expirePacing ms).slots = s.slots := by
  unfold State.expirePacing; split <;> simp
@[simp] theorem State.expirePacing_engine (ms : Nat) : (s.expirePacing ms).engine = s.engine := by
  unfold State.expirePacing; split <;> simp
@[simp] theorem State.expirePacing_notice (ms : Nat) : (s.expirePacing ms).notice = s.notice := by
  unfold State.expirePacing; split <;> simp
@[simp] theorem State.expirePacing_port (ms : Nat) : (s.expirePacing ms).port = s.port := by
  unfold State.expirePacing; split <;> simp
@[simp] theorem State.expirePacing_params (ms : Nat) : (s.expirePacing ms).params = s.params := by
  unfold State.expirePacing; split <;> simp
@[simp] theorem State.expirePacing_freeCount (ms : Nat) : (s.expirePacing ms).freeCount = s.freeCount := by
  unfold State.expirePacing; split <;> simp
@[simp] theorem State.expirePacing_pending (ms : Nat) : (s.expirePacing ms).pending = s.pending := by
  unfold State.expirePacing; split <;> simp
@[simp] theorem State.expirePacing_link (ms : Nat) : (s.expirePacing ms).link = { s.link with pacing := .expired } := by
  unfold State.expirePacing; split <;> simp

@[simp] theorem State.enterRunning_rstn (p : BytePoint) : (s.enterRunning p).rstn = s.rstn := by
  cases p <;> rfl
@[simp] theorem State.enterRunning_line (p : BytePoint) : (s.enterRunning p).line = s.line := by
  cases p <;> rfl
@[simp] theorem State.enterRunning_dir (p : BytePoint) : (s.enterRunning p).dir = s.dir := by
  cases p <;> rfl
@[simp] theorem State.enterRunning_pool (p : BytePoint) : (s.enterRunning p).pool = s.pool := by
  cases p <;> rfl
@[simp] theorem State.enterRunning_slots (p : BytePoint) : (s.enterRunning p).slots = s.slots := by
  cases p <;> rfl
@[simp] theorem State.enterRunning_engine (p : BytePoint) : (s.enterRunning p).engine = s.engine := by
  cases p <;> rfl
@[simp] theorem State.enterRunning_encoder (p : BytePoint) : (s.enterRunning p).encoder =
    if p = .boundary then s.encoder else { s.encoder with gap := max s.encoder.gap 1 } := by
  cases p <;> rfl
@[simp] theorem State.enterRunning_notice (p : BytePoint) : (s.enterRunning p).notice = s.notice := by
  cases p <;> rfl
@[simp] theorem State.enterRunning_port (p : BytePoint) : (s.enterRunning p).port = s.port := by
  cases p <;> rfl
@[simp] theorem State.enterRunning_params (p : BytePoint) : (s.enterRunning p).params = s.params := by
  cases p <;> rfl
@[simp] theorem State.enterRunning_freeCount (p : BytePoint) : (s.enterRunning p).freeCount = s.freeCount := by
  cases p <;> rfl
@[simp] theorem State.enterRunning_pending (p : BytePoint) : (s.enterRunning p).pending = s.pending := by
  cases p <;> rfl

@[simp] theorem State.stopToHalted_rstn : (s.stopToHalted).rstn = s.rstn := rfl
@[simp] theorem State.stopToHalted_line : (s.stopToHalted).line = s.line := rfl
@[simp] theorem State.stopToHalted_dir : (s.stopToHalted).dir = s.dir := rfl
@[simp] theorem State.stopToHalted_pool : (s.stopToHalted).pool = s.pool := rfl
@[simp] theorem State.stopToHalted_slots : (s.stopToHalted).slots = s.slots := rfl
@[simp] theorem State.stopToHalted_engine : (s.stopToHalted).engine = s.engine := rfl
@[simp] theorem State.stopToHalted_notice : (s.stopToHalted).notice = s.notice := rfl
@[simp] theorem State.stopToHalted_port : (s.stopToHalted).port = s.port := rfl
@[simp] theorem State.stopToHalted_params : (s.stopToHalted).params = s.params := rfl
@[simp] theorem State.stopToHalted_freeCount : (s.stopToHalted).freeCount = s.freeCount := rfl
@[simp] theorem State.stopToHalted_pending : (s.stopToHalted).pending = s.pending := rfl

@[simp] theorem State.endTransaction_rstn (n : Nat) : (s.endTransaction n).rstn = s.rstn := rfl
@[simp] theorem State.endTransaction_line (n : Nat) : (s.endTransaction n).line = s.line := rfl
@[simp] theorem State.endTransaction_dir (n : Nat) : (s.endTransaction n).dir = s.dir := rfl
@[simp] theorem State.endTransaction_pool (n : Nat) : (s.endTransaction n).pool = s.pool := rfl
@[simp] theorem State.endTransaction_slots (n : Nat) : (s.endTransaction n).slots = s.slots := rfl
@[simp] theorem State.endTransaction_engine (n : Nat) : (s.endTransaction n).engine = s.engine := rfl
@[simp] theorem State.endTransaction_encoder (n : Nat) : (s.endTransaction n).encoder = s.encoder := rfl
@[simp] theorem State.endTransaction_link (n : Nat) : (s.endTransaction n).link = s.link := rfl
@[simp] theorem State.endTransaction_notice (n : Nat) : (s.endTransaction n).notice = s.notice := rfl
@[simp] theorem State.endTransaction_params (n : Nat) : (s.endTransaction n).params = s.params := rfl
@[simp] theorem State.endTransaction_freeCount (n : Nat) : (s.endTransaction n).freeCount = s.freeCount := rfl
@[simp] theorem State.endTransaction_pending (n : Nat) : (s.endTransaction n).pending = s.pending := rfl

@[simp] theorem State.begin_rstn (t : PortTask) : (s.begin t).rstn = s.rstn := rfl
@[simp] theorem State.begin_line (t : PortTask) : (s.begin t).line = s.line := rfl
@[simp] theorem State.begin_dir (t : PortTask) : (s.begin t).dir = s.dir := rfl
@[simp] theorem State.begin_pool (t : PortTask) : (s.begin t).pool = s.pool := rfl
@[simp] theorem State.begin_slots (t : PortTask) : (s.begin t).slots = s.slots := rfl
@[simp] theorem State.begin_engine (t : PortTask) : (s.begin t).engine = s.engine := rfl
@[simp] theorem State.begin_encoder (t : PortTask) : (s.begin t).encoder = s.encoder := rfl
@[simp] theorem State.begin_link (t : PortTask) : (s.begin t).link = s.link := rfl
@[simp] theorem State.begin_notice (t : PortTask) : (s.begin t).notice = s.notice := rfl
@[simp] theorem State.begin_params (t : PortTask) : (s.begin t).params = s.params := rfl
@[simp] theorem State.begin_freeCount (t : PortTask) : (s.begin t).freeCount = s.freeCount := rfl
@[simp] theorem State.begin_pending (t : PortTask) : (s.begin t).pending = s.pending := rfl

@[simp] theorem State.finish_rstn (r : Result) : (s.finish r).rstn = s.rstn := rfl
@[simp] theorem State.finish_line (r : Result) : (s.finish r).line = s.line := rfl
@[simp] theorem State.finish_dir (r : Result) : (s.finish r).dir = s.dir := rfl
@[simp] theorem State.finish_pool (r : Result) : (s.finish r).pool = s.pool := rfl
@[simp] theorem State.finish_slots (r : Result) : (s.finish r).slots = s.slots := rfl
@[simp] theorem State.finish_engine (r : Result) : (s.finish r).engine = s.engine := rfl
@[simp] theorem State.finish_encoder (r : Result) : (s.finish r).encoder = s.encoder := rfl
@[simp] theorem State.finish_link (r : Result) : (s.finish r).link = s.link := rfl
@[simp] theorem State.finish_notice (r : Result) : (s.finish r).notice = s.notice := rfl
@[simp] theorem State.finish_params (r : Result) : (s.finish r).params = s.params := rfl
@[simp] theorem State.finish_freeCount (r : Result) : (s.finish r).freeCount = s.freeCount := rfl
@[simp] theorem State.finish_pending (r : Result) : (s.finish r).pending = s.pending := rfl

@[simp] theorem State.takeStatus_rstn : (s.takeStatus).rstn = s.rstn := rfl
@[simp] theorem State.takeStatus_line : (s.takeStatus).line = s.line := rfl
@[simp] theorem State.takeStatus_dir : (s.takeStatus).dir = s.dir := rfl
@[simp] theorem State.takeStatus_pool : (s.takeStatus).pool = s.pool := rfl
@[simp] theorem State.takeStatus_slots : (s.takeStatus).slots = s.slots := rfl
@[simp] theorem State.takeStatus_engine : (s.takeStatus).engine = s.engine := rfl
@[simp] theorem State.takeStatus_encoder : (s.takeStatus).encoder = s.encoder := rfl
@[simp] theorem State.takeStatus_link : (s.takeStatus).link = s.link := rfl
@[simp] theorem State.takeStatus_params : (s.takeStatus).params = s.params := rfl
@[simp] theorem State.takeStatus_freeCount : (s.takeStatus).freeCount = s.freeCount := rfl
@[simp] theorem State.takeStatus_pending : (s.takeStatus).pending = s.pending := rfl

@[simp] theorem State.openSlot_rstn (key : Key) (kind : Kind) (cls length : Nat) (n : SlotNo) :
    (s.openSlot key kind cls length n).rstn = s.rstn :=
  rfl
@[simp] theorem State.openSlot_line (key : Key) (kind : Kind) (cls length : Nat) (n : SlotNo) :
    (s.openSlot key kind cls length n).line = s.line :=
  rfl
@[simp] theorem State.openSlot_engine (key : Key) (kind : Kind) (cls length : Nat) (n : SlotNo) :
    (s.openSlot key kind cls length n).engine = s.engine :=
  rfl
@[simp] theorem State.openSlot_encoder (key : Key) (kind : Kind) (cls length : Nat) (n : SlotNo) :
    (s.openSlot key kind cls length n).encoder = s.encoder :=
  rfl
@[simp] theorem State.openSlot_link (key : Key) (kind : Kind) (cls length : Nat) (n : SlotNo) :
    (s.openSlot key kind cls length n).link = s.link :=
  rfl
@[simp] theorem State.openSlot_notice (key : Key) (kind : Kind) (cls length : Nat) (n : SlotNo) :
    (s.openSlot key kind cls length n).notice = s.notice :=
  rfl
@[simp] theorem State.openSlot_port (key : Key) (kind : Kind) (cls length : Nat) (n : SlotNo) :
    (s.openSlot key kind cls length n).port = s.port :=
  rfl
@[simp] theorem State.openSlot_params (key : Key) (kind : Kind) (cls length : Nat) (n : SlotNo) :
    (s.openSlot key kind cls length n).params = s.params :=
  rfl
@[simp] theorem State.openSlot_freeCount (key : Key) (kind : Kind) (cls length : Nat) (n : SlotNo) :
    (s.openSlot key kind cls length n).freeCount = s.freeCount :=
  rfl
@[simp] theorem State.openSlot_pending (key : Key) (kind : Kind) (cls length : Nat) (n : SlotNo) :
    (s.openSlot key kind cls length n).pending = s.pending :=
  rfl

@[simp] theorem State.install_rstn (n : SlotNo) (x : Session) (b : Bool) (e : Entry) : (s.install n x b e).rstn = s.rstn := rfl
@[simp] theorem State.install_line (n : SlotNo) (x : Session) (b : Bool) (e : Entry) : (s.install n x b e).line = s.line := rfl
@[simp] theorem State.install_encoder (n : SlotNo) (x : Session) (b : Bool) (e : Entry) : (s.install n x b e).encoder = s.encoder := rfl
@[simp] theorem State.install_link (n : SlotNo) (x : Session) (b : Bool) (e : Entry) : (s.install n x b e).link = s.link := rfl
@[simp] theorem State.install_notice (n : SlotNo) (x : Session) (b : Bool) (e : Entry) : (s.install n x b e).notice = s.notice := rfl
@[simp] theorem State.install_port (n : SlotNo) (x : Session) (b : Bool) (e : Entry) : (s.install n x b e).port = s.port := rfl
@[simp] theorem State.install_params (n : SlotNo) (x : Session) (b : Bool) (e : Entry) : (s.install n x b e).params = s.params := rfl
@[simp] theorem State.install_freeCount (n : SlotNo) (x : Session) (b : Bool) (e : Entry) : (s.install n x b e).freeCount = s.freeCount :=
  rfl
@[simp] theorem State.install_pending (n : SlotNo) (x : Session) (b : Bool) (e : Entry) : (s.install n x b e).pending = s.pending := rfl

@[simp] theorem State.retireLive_rstn (key : Key) (v : Live) : (s.retireLive key v).rstn = s.rstn := rfl
@[simp] theorem State.retireLive_line (key : Key) (v : Live) : (s.retireLive key v).line = s.line := rfl
@[simp] theorem State.retireLive_slots (key : Key) (v : Live) : (s.retireLive key v).slots = s.slots := rfl
@[simp] theorem State.retireLive_encoder (key : Key) (v : Live) : (s.retireLive key v).encoder = s.encoder := rfl
@[simp] theorem State.retireLive_link (key : Key) (v : Live) : (s.retireLive key v).link = s.link := rfl
@[simp] theorem State.retireLive_notice (key : Key) (v : Live) : (s.retireLive key v).notice = s.notice := rfl
@[simp] theorem State.retireLive_port (key : Key) (v : Live) : (s.retireLive key v).port = s.port := rfl
@[simp] theorem State.retireLive_params (key : Key) (v : Live) : (s.retireLive key v).params = s.params := rfl
@[simp] theorem State.retireLive_freeCount (key : Key) (v : Live) : (s.retireLive key v).freeCount = s.freeCount := rfl
@[simp] theorem State.retireLive_pending (key : Key) (v : Live) : (s.retireLive key v).pending = s.pending := rfl

@[simp] theorem State.feedPiece_rstn (key : Key) (f : Feed) (off : Nat) (data : List Byte) : (s.feedPiece key f off data).rstn = s.rstn :=
  rfl
@[simp] theorem State.feedPiece_line (key : Key) (f : Feed) (off : Nat) (data : List Byte) : (s.feedPiece key f off data).line = s.line :=
  rfl
@[simp] theorem State.feedPiece_slots (key : Key) (f : Feed) (off : Nat) (data : List Byte) :
    (s.feedPiece key f off data).slots = s.slots :=
  rfl
@[simp] theorem State.feedPiece_engine (key : Key) (f : Feed) (off : Nat) (data : List Byte) :
    (s.feedPiece key f off data).engine = s.engine :=
  rfl
@[simp] theorem State.feedPiece_encoder (key : Key) (f : Feed) (off : Nat) (data : List Byte) :
    (s.feedPiece key f off data).encoder = s.encoder :=
  rfl
@[simp] theorem State.feedPiece_link (key : Key) (f : Feed) (off : Nat) (data : List Byte) : (s.feedPiece key f off data).link = s.link :=
  rfl
@[simp] theorem State.feedPiece_notice (key : Key) (f : Feed) (off : Nat) (data : List Byte) :
    (s.feedPiece key f off data).notice = s.notice :=
  rfl
@[simp] theorem State.feedPiece_port (key : Key) (f : Feed) (off : Nat) (data : List Byte) : (s.feedPiece key f off data).port = s.port :=
  rfl
@[simp] theorem State.feedPiece_params (key : Key) (f : Feed) (off : Nat) (data : List Byte) :
    (s.feedPiece key f off data).params = s.params :=
  rfl
@[simp] theorem State.feedPiece_freeCount (key : Key) (f : Feed) (off : Nat) (data : List Byte) :
    (s.feedPiece key f off data).freeCount = s.freeCount :=
  rfl
@[simp] theorem State.feedPiece_pending (key : Key) (f : Feed) (off : Nat) (data : List Byte) :
    (s.feedPiece key f off data).pending = s.pending :=
  rfl

@[simp] theorem State.clearStore_rstn : (s.clearStore).rstn = s.rstn := rfl
@[simp] theorem State.clearStore_line : (s.clearStore).line = s.line := rfl
@[simp] theorem State.clearStore_link : (s.clearStore).link = s.link := rfl
@[simp] theorem State.clearStore_port : (s.clearStore).port = s.port := rfl
@[simp] theorem State.clearStore_params : (s.clearStore).params = s.params := rfl
@[simp] theorem State.clearStore_freeCount : (s.clearStore).freeCount = s.freeCount := rfl
@[simp] theorem State.clearStore_pending : (s.clearStore).pending = s.pending := rfl

@[simp] theorem State.startCycle_rstn : (s.startCycle).rstn = s.rstn := rfl
@[simp] theorem State.startCycle_line : (s.startCycle).line = s.line := rfl
@[simp] theorem State.startCycle_pool : (s.startCycle).pool = s.pool := rfl
@[simp] theorem State.startCycle_slots : (s.startCycle).slots = s.slots := rfl
@[simp] theorem State.startCycle_port : (s.startCycle).port = s.port := rfl
@[simp] theorem State.startCycle_params : (s.startCycle).params = s.params := rfl
@[simp] theorem State.startCycle_freeCount : (s.startCycle).freeCount = s.freeCount := rfl
@[simp] theorem State.startCycle_pending : (s.startCycle).pending = s.pending := rfl

@[simp] theorem State.closeCycle_rstn : (s.closeCycle).rstn = s.rstn := rfl
@[simp] theorem State.closeCycle_line : (s.closeCycle).line = s.line := rfl
@[simp] theorem State.closeCycle_dir : (s.closeCycle).dir = s.dir := rfl
@[simp] theorem State.closeCycle_pool : (s.closeCycle).pool = s.pool := rfl
@[simp] theorem State.closeCycle_slots : (s.closeCycle).slots = s.slots := rfl
@[simp] theorem State.closeCycle_link : (s.closeCycle).link = s.link := rfl
@[simp] theorem State.closeCycle_notice : (s.closeCycle).notice = s.notice := rfl
@[simp] theorem State.closeCycle_port : (s.closeCycle).port = s.port := rfl
@[simp] theorem State.closeCycle_params : (s.closeCycle).params = s.params := rfl
@[simp] theorem State.closeCycle_freeCount : (s.closeCycle).freeCount = s.freeCount := rfl
@[simp] theorem State.closeCycle_pending : (s.closeCycle).pending = s.pending := rfl

@[simp] theorem State.overflowClose_rstn : (s.overflowClose).rstn = s.rstn := rfl
@[simp] theorem State.overflowClose_line : (s.overflowClose).line = s.line := rfl
@[simp] theorem State.overflowClose_dir : (s.overflowClose).dir = s.dir := rfl
@[simp] theorem State.overflowClose_pool : (s.overflowClose).pool = s.pool := rfl
@[simp] theorem State.overflowClose_slots : (s.overflowClose).slots = s.slots := rfl
@[simp] theorem State.overflowClose_link : (s.overflowClose).link = s.link := rfl
@[simp] theorem State.overflowClose_notice : (s.overflowClose).notice = s.notice := rfl
@[simp] theorem State.overflowClose_port : (s.overflowClose).port = s.port := rfl
@[simp] theorem State.overflowClose_params : (s.overflowClose).params = s.params := rfl
@[simp] theorem State.overflowClose_freeCount : (s.overflowClose).freeCount = s.freeCount := rfl
@[simp] theorem State.overflowClose_pending : (s.overflowClose).pending = s.pending := rfl

@[simp] theorem State.countFrame_rstn (src : Source) (k : Key) : (s.countFrame src k).rstn = s.rstn := rfl
@[simp] theorem State.countFrame_line (src : Source) (k : Key) : (s.countFrame src k).line = s.line := rfl
@[simp] theorem State.countFrame_dir (src : Source) (k : Key) : (s.countFrame src k).dir = s.dir := rfl
@[simp] theorem State.countFrame_slots (src : Source) (k : Key) : (s.countFrame src k).slots = s.slots := rfl
@[simp] theorem State.countFrame_encoder (src : Source) (k : Key) : (s.countFrame src k).encoder = s.encoder := rfl
@[simp] theorem State.countFrame_link (src : Source) (k : Key) : (s.countFrame src k).link = s.link := rfl
@[simp] theorem State.countFrame_notice (src : Source) (k : Key) : (s.countFrame src k).notice = s.notice := rfl
@[simp] theorem State.countFrame_port (src : Source) (k : Key) : (s.countFrame src k).port = s.port := rfl
@[simp] theorem State.countFrame_params (src : Source) (k : Key) : (s.countFrame src k).params = s.params := rfl
@[simp] theorem State.countFrame_freeCount (src : Source) (k : Key) : (s.countFrame src k).freeCount = s.freeCount := rfl
@[simp] theorem State.countFrame_pending (src : Source) (k : Key) : (s.countFrame src k).pending = s.pending := rfl

@[simp] theorem State.recordDone_rstn (f : RecordFrame) : (s.recordDone f).rstn = s.rstn := rfl
@[simp] theorem State.recordDone_line (f : RecordFrame) : (s.recordDone f).line = s.line := rfl
@[simp] theorem State.recordDone_slots (f : RecordFrame) : (s.recordDone f).slots = s.slots := rfl
@[simp] theorem State.recordDone_encoder (f : RecordFrame) : (s.recordDone f).encoder = s.encoder := rfl
@[simp] theorem State.recordDone_link (f : RecordFrame) : (s.recordDone f).link = s.link := rfl
@[simp] theorem State.recordDone_notice (f : RecordFrame) : (s.recordDone f).notice = s.notice := rfl
@[simp] theorem State.recordDone_port (f : RecordFrame) : (s.recordDone f).port = s.port := rfl
@[simp] theorem State.recordDone_params (f : RecordFrame) : (s.recordDone f).params = s.params := rfl
@[simp] theorem State.recordDone_freeCount (f : RecordFrame) : (s.recordDone f).freeCount = s.freeCount := rfl
@[simp] theorem State.recordDone_pending (f : RecordFrame) : (s.recordDone f).pending = s.pending := rfl

@[simp] theorem State.withdrawalDone_rstn (f : WithdrawalFrame) : (s.withdrawalDone f).rstn = s.rstn := rfl
@[simp] theorem State.withdrawalDone_line (f : WithdrawalFrame) : (s.withdrawalDone f).line = s.line := rfl
@[simp] theorem State.withdrawalDone_slots (f : WithdrawalFrame) : (s.withdrawalDone f).slots = s.slots := rfl
@[simp] theorem State.withdrawalDone_encoder (f : WithdrawalFrame) : (s.withdrawalDone f).encoder = s.encoder := rfl
@[simp] theorem State.withdrawalDone_link (f : WithdrawalFrame) : (s.withdrawalDone f).link = s.link := rfl
@[simp] theorem State.withdrawalDone_notice (f : WithdrawalFrame) : (s.withdrawalDone f).notice = s.notice := rfl
@[simp] theorem State.withdrawalDone_port (f : WithdrawalFrame) : (s.withdrawalDone f).port = s.port := rfl
@[simp] theorem State.withdrawalDone_params (f : WithdrawalFrame) : (s.withdrawalDone f).params = s.params := rfl
@[simp] theorem State.withdrawalDone_freeCount (f : WithdrawalFrame) : (s.withdrawalDone f).freeCount = s.freeCount := rfl
@[simp] theorem State.withdrawalDone_pending (f : WithdrawalFrame) : (s.withdrawalDone f).pending = s.pending := rfl

@[simp] theorem State.expireKeyUp_rstn (ms : Nat) : (s.expireKeyUp ms).rstn = s.rstn := by
  unfold State.expireKeyUp; split <;> simp
@[simp] theorem State.expireKeyUp_line (ms : Nat) : (s.expireKeyUp ms).line = s.line := by
  unfold State.expireKeyUp; split <;> simp
@[simp] theorem State.expireKeyUp_dir (ms : Nat) : (s.expireKeyUp ms).dir = s.dir := by
  unfold State.expireKeyUp; split <;> simp
@[simp] theorem State.expireKeyUp_pool (ms : Nat) : (s.expireKeyUp ms).pool = s.pool := by
  unfold State.expireKeyUp; split <;> simp
@[simp] theorem State.expireKeyUp_slots (ms : Nat) : (s.expireKeyUp ms).slots = s.slots := by
  unfold State.expireKeyUp; split <;> simp
@[simp] theorem State.expireKeyUp_engine (ms : Nat) : (s.expireKeyUp ms).engine = s.engine := by
  unfold State.expireKeyUp; split <;> simp
/-- The key-up expiry adds to the bytes of the line only where it enters RUNNING inside a fill byte. -/
theorem State.expireKeyUp_encoder (ms : Nat) : (s.expireKeyUp ms).encoder =
    if s.link.clr = true ∧ s.expiryPoint ms = .inside then { s.encoder with gap := max s.encoder.gap 1 } else s.encoder := by
  unfold State.expireKeyUp
  cases s.link.clr <;> cases h : s.expiryPoint ms <;> simp
@[simp] theorem State.expireKeyUp_notice (ms : Nat) : (s.expireKeyUp ms).notice = s.notice := by
  unfold State.expireKeyUp; split <;> simp
@[simp] theorem State.expireKeyUp_port (ms : Nat) : (s.expireKeyUp ms).port = s.port := by
  unfold State.expireKeyUp; split <;> simp
@[simp] theorem State.expireKeyUp_params (ms : Nat) : (s.expireKeyUp ms).params = s.params := by
  unfold State.expireKeyUp; split <;> simp
@[simp] theorem State.expireKeyUp_freeCount (ms : Nat) : (s.expireKeyUp ms).freeCount = s.freeCount := by
  unfold State.expireKeyUp; split <;> simp
@[simp] theorem State.expireKeyUp_pending (ms : Nat) : (s.expireKeyUp ms).pending = s.pending := by
  unfold State.expireKeyUp; split <;> simp

@[simp] theorem State.startFrame_rstn (src : Source) (e : Entry) : (s.startFrame src e).rstn = s.rstn := by
  unfold State.startFrame; split <;> rfl
@[simp] theorem State.startFrame_line (src : Source) (e : Entry) : (s.startFrame src e).line = s.line := by
  unfold State.startFrame; split <;> rfl
@[simp] theorem State.startFrame_pool (src : Source) (e : Entry) : (s.startFrame src e).pool = s.pool := by
  unfold State.startFrame; split <;> rfl
@[simp] theorem State.startFrame_slots (src : Source) (e : Entry) : (s.startFrame src e).slots = s.slots := by
  unfold State.startFrame; split <;> rfl
@[simp] theorem State.startFrame_link (src : Source) (e : Entry) : (s.startFrame src e).link = s.link := by
  unfold State.startFrame; split <;> rfl
@[simp] theorem State.startFrame_notice (src : Source) (e : Entry) : (s.startFrame src e).notice = s.notice := by
  unfold State.startFrame; split <;> rfl
@[simp] theorem State.startFrame_port (src : Source) (e : Entry) : (s.startFrame src e).port = s.port := by
  unfold State.startFrame; split <;> rfl
@[simp] theorem State.startFrame_params (src : Source) (e : Entry) : (s.startFrame src e).params = s.params := by
  unfold State.startFrame; split <;> rfl
@[simp] theorem State.startFrame_freeCount (src : Source) (e : Entry) : (s.startFrame src e).freeCount = s.freeCount := by
  unfold State.startFrame; split <;> rfl
@[simp] theorem State.startFrame_pending (src : Source) (e : Entry) : (s.startFrame src e).pending = s.pending := by
  unfold State.startFrame; split <;> rfl

@[simp] theorem State.afterFrame_rstn : (s.afterFrame).rstn = s.rstn := by
  unfold State.afterFrame; split <;> simp
@[simp] theorem State.afterFrame_line : (s.afterFrame).line = s.line := by
  unfold State.afterFrame; split <;> simp
@[simp] theorem State.afterFrame_dir : (s.afterFrame).dir = s.dir := by
  unfold State.afterFrame; split <;> simp
@[simp] theorem State.afterFrame_slots : (s.afterFrame).slots = s.slots := by
  unfold State.afterFrame; split <;> simp
@[simp] theorem State.afterFrame_link : (s.afterFrame).link = s.link := by
  unfold State.afterFrame; split <;> simp
@[simp] theorem State.afterFrame_notice : (s.afterFrame).notice = s.notice := by
  unfold State.afterFrame; split <;> simp
@[simp] theorem State.afterFrame_port : (s.afterFrame).port = s.port := by
  unfold State.afterFrame; split <;> simp
@[simp] theorem State.afterFrame_params : (s.afterFrame).params = s.params := by
  unfold State.afterFrame; split <;> simp
@[simp] theorem State.afterFrame_freeCount : (s.afterFrame).freeCount = s.freeCount := by
  unfold State.afterFrame; split <;> simp
@[simp] theorem State.afterFrame_pending : (s.afterFrame).pending = s.pending := by
  unfold State.afterFrame; split <;> simp

@[simp] theorem State.takeResult_rstn : (s.takeResult).rstn = s.rstn := by
  unfold State.takeResult; repeat' split
  all_goals rfl
@[simp] theorem State.takeResult_line : (s.takeResult).line = s.line := by
  unfold State.takeResult; repeat' split
  all_goals rfl
@[simp] theorem State.takeResult_dir : (s.takeResult).dir = s.dir := by
  unfold State.takeResult; repeat' split
  all_goals rfl
@[simp] theorem State.takeResult_pool : (s.takeResult).pool = s.pool := by
  unfold State.takeResult; repeat' split
  all_goals rfl
@[simp] theorem State.takeResult_slots : (s.takeResult).slots = s.slots := by
  unfold State.takeResult; repeat' split
  all_goals rfl
@[simp] theorem State.takeResult_engine : (s.takeResult).engine = s.engine := by
  unfold State.takeResult; repeat' split
  all_goals rfl
@[simp] theorem State.takeResult_encoder : (s.takeResult).encoder = s.encoder := by
  unfold State.takeResult; repeat' split
  all_goals rfl
@[simp] theorem State.takeResult_link : (s.takeResult).link = s.link := by
  unfold State.takeResult; repeat' split
  all_goals rfl
@[simp] theorem State.takeResult_notice : (s.takeResult).notice = s.notice := by
  unfold State.takeResult; repeat' split
  all_goals rfl
@[simp] theorem State.takeResult_params : (s.takeResult).params = s.params := by
  unfold State.takeResult; repeat' split
  all_goals rfl
@[simp] theorem State.takeResult_freeCount : (s.takeResult).freeCount = s.freeCount := by
  unfold State.takeResult; repeat' split
  all_goals rfl
@[simp] theorem State.takeResult_pending : (s.takeResult).pending = s.pending := by
  unfold State.takeResult; repeat' split
  all_goals rfl

@[simp] theorem State.settleQueue_rstn : (s.settleQueue).rstn = s.rstn := by
  unfold State.settleQueue; repeat' split
  all_goals rfl
@[simp] theorem State.settleQueue_line : (s.settleQueue).line = s.line := by
  unfold State.settleQueue; repeat' split
  all_goals rfl
@[simp] theorem State.settleQueue_dir : (s.settleQueue).dir = s.dir := by
  unfold State.settleQueue; repeat' split
  all_goals rfl
@[simp] theorem State.settleQueue_pool : (s.settleQueue).pool = s.pool := by
  unfold State.settleQueue; repeat' split
  all_goals rfl
@[simp] theorem State.settleQueue_slots : (s.settleQueue).slots = s.slots := by
  unfold State.settleQueue; repeat' split
  all_goals rfl
@[simp] theorem State.settleQueue_encoder : (s.settleQueue).encoder = s.encoder := by
  unfold State.settleQueue; repeat' split
  all_goals rfl
@[simp] theorem State.settleQueue_link : (s.settleQueue).link = s.link := by
  unfold State.settleQueue; repeat' split
  all_goals rfl
@[simp] theorem State.settleQueue_notice : (s.settleQueue).notice = s.notice := by
  unfold State.settleQueue; repeat' split
  all_goals rfl
@[simp] theorem State.settleQueue_port : (s.settleQueue).port = s.port := by
  unfold State.settleQueue; repeat' split
  all_goals rfl
@[simp] theorem State.settleQueue_params : (s.settleQueue).params = s.params := by
  unfold State.settleQueue; repeat' split
  all_goals rfl
@[simp] theorem State.settleQueue_freeCount : (s.settleQueue).freeCount = s.freeCount := by
  unfold State.settleQueue; repeat' split
  all_goals rfl
@[simp] theorem State.settleQueue_pending : (s.settleQueue).pending = s.pending := by
  unfold State.settleQueue; repeat' split
  all_goals rfl

@[simp] theorem State.cutLine_rstn : (s.cutLine).rstn = s.rstn := by
  unfold State.cutLine; repeat' split
  all_goals rfl
@[simp] theorem State.cutLine_line : (s.cutLine).line = s.line := by
  unfold State.cutLine; repeat' split
  all_goals rfl
@[simp] theorem State.cutLine_dir : (s.cutLine).dir = s.dir := by
  unfold State.cutLine; repeat' split
  all_goals rfl
@[simp] theorem State.cutLine_slots : (s.cutLine).slots = s.slots := by
  unfold State.cutLine; repeat' split
  all_goals rfl
@[simp] theorem State.cutLine_encoder : (s.cutLine).encoder = s.encoder := by
  unfold State.cutLine; repeat' split
  all_goals rfl
@[simp] theorem State.cutLine_link : (s.cutLine).link = s.link := by
  unfold State.cutLine; repeat' split
  all_goals rfl
@[simp] theorem State.cutLine_notice : (s.cutLine).notice = s.notice := by
  unfold State.cutLine; repeat' split
  all_goals rfl
@[simp] theorem State.cutLine_port : (s.cutLine).port = s.port := by
  unfold State.cutLine; repeat' split
  all_goals rfl
@[simp] theorem State.cutLine_params : (s.cutLine).params = s.params := by
  unfold State.cutLine; repeat' split
  all_goals rfl
@[simp] theorem State.cutLine_freeCount : (s.cutLine).freeCount = s.freeCount := by
  unfold State.cutLine; repeat' split
  all_goals rfl
@[simp] theorem State.cutLine_pending : (s.cutLine).pending = s.pending := by
  unfold State.cutLine; repeat' split
  all_goals rfl

@[simp] theorem State.enterKeying_rstn : (s.enterKeying).rstn = s.rstn := by
  unfold State.enterKeying; split <;> simp
@[simp] theorem State.enterKeying_line : (s.enterKeying).line = s.line := by
  unfold State.enterKeying; split <;> simp
@[simp] theorem State.enterKeying_dir : (s.enterKeying).dir = s.dir := by
  unfold State.enterKeying; split <;> simp
@[simp] theorem State.enterKeying_pool : (s.enterKeying).pool = s.pool := by
  unfold State.enterKeying; split <;> simp
@[simp] theorem State.enterKeying_slots : (s.enterKeying).slots = s.slots := by
  unfold State.enterKeying; split <;> simp
@[simp] theorem State.enterKeying_engine : (s.enterKeying).engine = s.engine := by
  unfold State.enterKeying; split <;> simp
@[simp] theorem State.enterKeying_notice : (s.enterKeying).notice = s.notice := by
  unfold State.enterKeying; split <;> simp
@[simp] theorem State.enterKeying_port : (s.enterKeying).port = s.port := by
  unfold State.enterKeying; split <;> simp
@[simp] theorem State.enterKeying_params : (s.enterKeying).params = s.params := by
  unfold State.enterKeying; split <;> simp
@[simp] theorem State.enterKeying_freeCount : (s.enterKeying).freeCount = s.freeCount := by
  unfold State.enterKeying; split <;> simp
@[simp] theorem State.enterKeying_pending : (s.enterKeying).pending = s.pending := by
  unfold State.enterKeying; split <;> simp

@[simp] theorem State.wake_rstn : (s.wake).rstn = s.rstn := by
  unfold State.wake; split <;> simp
@[simp] theorem State.wake_line : (s.wake).line = s.line := by
  unfold State.wake; split <;> simp
@[simp] theorem State.wake_dir : (s.wake).dir = s.dir := by
  unfold State.wake; split <;> simp
@[simp] theorem State.wake_pool : (s.wake).pool = s.pool := by
  unfold State.wake; split <;> simp
@[simp] theorem State.wake_slots : (s.wake).slots = s.slots := by
  unfold State.wake; split <;> simp
@[simp] theorem State.wake_engine : (s.wake).engine = s.engine := by
  unfold State.wake; split <;> simp
@[simp] theorem State.wake_notice : (s.wake).notice = s.notice := by
  unfold State.wake; split <;> simp
@[simp] theorem State.wake_port : (s.wake).port = s.port := by
  unfold State.wake; split <;> simp
@[simp] theorem State.wake_params : (s.wake).params = s.params := by
  unfold State.wake; split <;> simp
@[simp] theorem State.wake_freeCount : (s.wake).freeCount = s.freeCount := by
  unfold State.wake; split <;> simp
@[simp] theorem State.wake_pending : (s.wake).pending = s.pending := by
  unfold State.wake; split <;> simp

theorem State.gated_rstn (n : Nat) (act : State → State) (h : ∀ u, (act u).rstn = u.rstn) : (s.gated n act).rstn = s.rstn := by
  unfold State.gated; repeat' split
  · rfl
  · simp [h]
  · rfl
theorem State.gated_line (n : Nat) (act : State → State) (h : ∀ u, (act u).line = u.line) : (s.gated n act).line = s.line := by
  unfold State.gated; repeat' split
  · rfl
  · simp [h]
  · rfl
theorem State.gated_dir (n : Nat) (act : State → State) (h : ∀ u, (act u).dir = u.dir) : (s.gated n act).dir = s.dir := by
  unfold State.gated; repeat' split
  · rfl
  · simp [h]
  · rfl
theorem State.gated_pool (n : Nat) (act : State → State) (h : ∀ u, (act u).pool = u.pool) : (s.gated n act).pool = s.pool := by
  unfold State.gated; repeat' split
  · rfl
  · simp [h]
  · rfl
theorem State.gated_slots (n : Nat) (act : State → State) (h : ∀ u, (act u).slots = u.slots) : (s.gated n act).slots = s.slots := by
  unfold State.gated; repeat' split
  · rfl
  · simp [h]
  · rfl
theorem State.gated_engine (n : Nat) (act : State → State) (h : ∀ u, (act u).engine = u.engine) : (s.gated n act).engine = s.engine := by
  unfold State.gated; repeat' split
  · rfl
  · simp [h]
  · rfl
theorem State.gated_encoder (n : Nat) (act : State → State) (h :
    ∀ u, (act u).encoder = u.encoder) : (s.gated n act).encoder = s.encoder := by
  unfold State.gated; repeat' split
  · rfl
  · simp [h]
  · rfl
theorem State.gated_link (n : Nat) (act : State → State) (h : ∀ u, (act u).link = u.link) : (s.gated n act).link = s.link := by
  unfold State.gated; repeat' split
  · rfl
  · simp [h]
  · rfl
theorem State.gated_notice (n : Nat) (act : State → State) (h : ∀ u, (act u).notice = u.notice) : (s.gated n act).notice = s.notice := by
  unfold State.gated; repeat' split
  · rfl
  · simp [h]
  · rfl
theorem State.gated_params (n : Nat) (act : State → State) (h : ∀ u, (act u).params = u.params) : (s.gated n act).params = s.params := by
  unfold State.gated; repeat' split
  · rfl
  · simp [h]
  · rfl
theorem State.gated_freeCount (n : Nat) (act : State → State) (h :
    ∀ u, (act u).freeCount = u.freeCount) : (s.gated n act).freeCount = s.freeCount := by
  unfold State.gated; repeat' split
  · rfl
  · simp [h]
  · rfl
theorem State.gated_pending (n : Nat) (act : State → State) (h :
    ∀ u, (act u).pending = u.pending) : (s.gated n act).pending = s.pending := by
  unfold State.gated; repeat' split
  · rfl
  · simp [h]
  · rfl

@[simp] theorem State.accept_rstn (args : List Byte) (c : Command) : (s.accept args c).rstn = s.rstn :=
  State.gated_rstn s _ _ (fun _ => rfl)
@[simp] theorem State.accept_line (args : List Byte) (c : Command) : (s.accept args c).line = s.line :=
  State.gated_line s _ _ (fun _ => rfl)
@[simp] theorem State.accept_dir (args : List Byte) (c : Command) : (s.accept args c).dir = s.dir :=
  State.gated_dir s _ _ (fun _ => rfl)
@[simp] theorem State.accept_pool (args : List Byte) (c : Command) : (s.accept args c).pool = s.pool :=
  State.gated_pool s _ _ (fun _ => rfl)
@[simp] theorem State.accept_slots (args : List Byte) (c : Command) : (s.accept args c).slots = s.slots :=
  State.gated_slots s _ _ (fun _ => rfl)
@[simp] theorem State.accept_engine (args : List Byte) (c : Command) : (s.accept args c).engine = s.engine :=
  State.gated_engine s _ _ (fun _ => rfl)
@[simp] theorem State.accept_encoder (args : List Byte) (c : Command) : (s.accept args c).encoder = s.encoder :=
  State.gated_encoder s _ _ (fun _ => rfl)
@[simp] theorem State.accept_link (args : List Byte) (c : Command) : (s.accept args c).link = s.link :=
  State.gated_link s _ _ (fun _ => rfl)
@[simp] theorem State.accept_notice (args : List Byte) (c : Command) : (s.accept args c).notice = s.notice :=
  State.gated_notice s _ _ (fun _ => rfl)
@[simp] theorem State.accept_params (args : List Byte) (c : Command) : (s.accept args c).params = s.params :=
  State.gated_params s _ _ (fun _ => rfl)
@[simp] theorem State.accept_freeCount (args : List Byte) (c : Command) : (s.accept args c).freeCount = s.freeCount :=
  State.gated_freeCount s _ _ (fun _ => rfl)
@[simp] theorem State.accept_pending (args : List Byte) (c : Command) : (s.accept args c).pending = s.pending :=
  State.gated_pending s _ _ (fun _ => rfl)

/-! ### One byte-time moves the line alone -/

/-! A byte passes: only the encoder and the frame on air move; with a byte-time CYC falls. -/

@[simp] theorem State.passByte_rstn : s.passByte.rstn = s.rstn := by
  unfold State.passByte; repeat' split
  all_goals simp
@[simp] theorem State.passByte_dir : s.passByte.dir = s.dir := by
  unfold State.passByte; repeat' split
  all_goals simp
@[simp] theorem State.passByte_pool : s.passByte.pool = s.pool := by
  unfold State.passByte; repeat' split
  all_goals simp
@[simp] theorem State.passByte_slots : s.passByte.slots = s.slots := by
  unfold State.passByte; repeat' split
  all_goals simp
@[simp] theorem State.passByte_link : s.passByte.link = s.link := by
  unfold State.passByte; repeat' split
  all_goals simp
@[simp] theorem State.passByte_notice : s.passByte.notice = s.notice := by
  unfold State.passByte; repeat' split
  all_goals simp
@[simp] theorem State.passByte_port : s.passByte.port = s.port := by
  unfold State.passByte; repeat' split
  all_goals simp
@[simp] theorem State.passByte_params : s.passByte.params = s.params := by
  unfold State.passByte; repeat' split
  all_goals simp
@[simp] theorem State.passByte_freeCount : s.passByte.freeCount = s.freeCount := by
  unfold State.passByte; repeat' split
  all_goals simp
@[simp] theorem State.passByte_pending : s.passByte.pending = s.pending := by
  unfold State.passByte; repeat' split
  all_goals simp
@[simp] theorem byteTime_rstn : (byteTime s).rstn = s.rstn := by
  unfold byteTime; split <;> simp
@[simp] theorem byteTime_dir : (byteTime s).dir = s.dir := by
  unfold byteTime; split <;> simp
@[simp] theorem byteTime_pool : (byteTime s).pool = s.pool := by
  unfold byteTime; split <;> simp
@[simp] theorem byteTime_slots : (byteTime s).slots = s.slots := by
  unfold byteTime; split <;> simp
@[simp] theorem byteTime_link : (byteTime s).link = if s.link.state.keyed then { s.link with cyc := false } else s.link := by
  unfold byteTime; split <;> simp
@[simp] theorem byteTime_notice : (byteTime s).notice = s.notice := by
  unfold byteTime; split <;> simp
@[simp] theorem byteTime_port : (byteTime s).port = s.port := by
  unfold byteTime; split <;> simp
@[simp] theorem byteTime_params : (byteTime s).params = s.params := by
  unfold byteTime; split <;> simp
@[simp] theorem byteTime_freeCount : (byteTime s).freeCount = s.freeCount := by
  unfold byteTime; split <;> simp
@[simp] theorem byteTime_pending : (byteTime s).pending = s.pending := by
  unfold byteTime; split <;> simp
/-- Every outcome of CYC_PULSE_END: outside the encoder, the line and the frame on air only CYC can change, and it is low. -/
theorem execCycPulseEnd_next (h : execCycPulseEnd s = .next t) :
    t = { s with line := t.line, engine := t.engine, encoder := t.encoder, link := { s.link with cyc := false } } := by
  unfold execCycPulseEnd at h
  split at h
  · cases h
    unfold byteTime
    split <;> simp [State.cycFalls]
  · rename_i hc
    cases h
    rw [Bool.not_eq_true] at hc
    rw [← hc]

/-! ## What each update sets -/

@[simp] theorem State.beginFrame_onAir (f : AirFrame) : (s.beginFrame f).engine.onAir = some f := rfl
@[simp] theorem State.beginFrame_encoder (f : AirFrame) : (s.beginFrame f).encoder = Encoder.idle := rfl
@[simp] theorem State.beginFrame_phase (f : AirFrame) : (s.beginFrame f).engine.phase = s.engine.phase := rfl
@[simp] theorem State.endFrame_onAir (gap : Nat) : (s.endFrame gap).engine.onAir = none := rfl
@[simp] theorem State.endFrame_encoder (gap : Nat) : (s.endFrame gap).encoder = { Encoder.idle with gap := gap } := rfl
@[simp] theorem State.endFrame_phase (gap : Nat) : (s.endFrame gap).engine.phase = s.engine.phase := rfl
@[simp] theorem State.earlyEnd_pool : s.earlyEnd.pool = s.pool.releaseHold := rfl
@[simp] theorem State.earlyEnd_phase : s.earlyEnd.engine.phase = .between := rfl
@[simp] theorem State.earlyEnd_onAir : s.earlyEnd.engine.onAir = none := rfl
@[simp] theorem State.earlyEnd_truncPrev : s.earlyEnd.engine.truncPrev = true := rfl
@[simp] theorem State.earlyEnd_queue : s.earlyEnd.engine.queue =
    s.queueWithOwed (queueWithAbandoned s.engine.queue (s.engine.onAir.bind AirFrame.key)) := rfl
@[simp] theorem State.beginFrameAfter_nil (f : AirFrame) : s.beginFrameAfter [] f = s.beginFrame f := rfl
@[simp] theorem State.beginFrameAfter_phase (lead : List Byte) (f : AirFrame) :
    (s.beginFrameAfter lead f).engine.phase = s.engine.phase := by
  unfold State.beginFrameAfter; split <;> rfl
theorem State.beginFrameAfter_onAir (lead : List Byte) (f : AirFrame) :
    (s.beginFrameAfter lead f).engine.onAir = if lead = [] then some f else none := by
  unfold State.beginFrameAfter; split <;> rfl
theorem State.beginFrameAfter_encoder (lead : List Byte) (f : AirFrame) :
    (s.beginFrameAfter lead f).encoder =
      if lead = [] then Encoder.idle else { Encoder.idle with waiting := some { lead := lead, frame := f } } := by
  unfold State.beginFrameAfter; split <;> rfl
/-- A frame that is to start is the next to end, whether it starts at once or waits. -/
@[simp] theorem State.beginFrameAfter_nextEnding (lead : List Byte) (f : AirFrame) :
    (s.beginFrameAfter lead f).nextEnding = some f := by
  unfold State.beginFrameAfter; split <;> rfl
@[simp] theorem State.truncatedEnd_pool (lead : List Byte) : (s.truncatedEnd lead).pool = s.pool.releaseHold := by
  unfold State.truncatedEnd; simp
@[simp] theorem State.truncatedEnd_phase (lead : List Byte) : (s.truncatedEnd lead).engine.phase = .between := by
  unfold State.truncatedEnd; simp
@[simp] theorem State.truncatedEnd_nextEnding (lead : List Byte) : (s.truncatedEnd lead).nextEnding =
    some (.cycleEnd { cycle := s.engine.cycle, frames := s.engine.frames, truncated := true }) := by
  unfold State.truncatedEnd; simp
@[simp] theorem State.sendToFrameEnd_line : s.sendToFrameEnd.line = s.bytesToFrameEnd := rfl
@[simp] theorem State.sendGap_line : s.sendGap.line = List.replicate s.encoder.gap fillByte := rfl
@[simp] theorem State.sendGap_encoder : s.sendGap.encoder = { s.encoder with gap := 0 } := rfl
@[simp] theorem State.finishFill_encoder : s.finishFill.encoder = { s.encoder with gap := max s.encoder.gap 1 } := rfl
@[simp] theorem State.enterKeying_encoder : s.enterKeying.encoder = Encoder.idle := by
  unfold State.enterKeying; split <;> simp [State.expireKeyUp_encoder]
/-- A frame choice or a cycle start is due on the line only in RUNNING, with no frame on air and no byte left to send before it. -/
theorem State.rowDue_running (h : s.rowDue = true) :
    s.link.state = .running ∧ s.engine.onAir = none ∧ s.encoder.gap = 0 := by
  simp only [State.rowDue, State.choiceAllowed, State.cycleAllowed, Bool.and_eq_true, Bool.or_eq_true, beq_iff_eq,
    Option.isNone_iff_eq_none] at h
  tauto
/-- Setting the stop point leaves the bytes to finish, wherever a frame is on air or waits or a cycle is open. -/
theorem State.bytesToFinish_stop (q : StopPoint) (h : s.nextEnding.isSome = true ∨ s.cycleOpen = true) :
    { s with link := { s.link with stop := q } }.bytesToFinish = s.bytesToFinish := by
  unfold State.bytesToFinish State.txdByte State.rowDue State.choiceAllowed State.cycleAllowed
  unfold State.nextEnding State.cycleOpen at *
  cases ha : s.engine.onAir <;> cases hw : s.encoder.waiting <;> simp_all
@[simp] theorem State.finishLead_line (w : Waiting) : (s.finishLead w).line = w.lead.take 1 := by
  unfold State.finishLead; simp
@[simp] theorem State.enterHalted_state : s.enterHalted.link.state = .halted := rfl
@[simp] theorem State.enterHalted_stop : s.enterHalted.link.stop = .none := rfl
@[simp] theorem State.enterHalted_onAir : s.enterHalted.engine.onAir = none := rfl
@[simp] theorem State.enterHalted_conds : s.enterHalted.notice.conds = s.notice.conds.raiseHaltReached := rfl
@[simp] theorem State.enterDormant_state : s.enterDormant.link.state = .dormant := rfl
@[simp] theorem State.enterDormant_stop : s.enterDormant.link.stop = .none := rfl
@[simp] theorem State.enterDormant_onAir : s.enterDormant.engine.onAir = none := rfl
@[simp] theorem State.enterDormant_conds : s.enterDormant.notice.conds = s.notice.conds.raiseDormantEntered := rfl
@[simp] theorem State.enterFault_state (c : FaultCause) : (s.enterFault c).link.state = .fault := rfl
@[simp] theorem State.enterFault_cause (c : FaultCause) : (s.enterFault c).link.cause = c := rfl
@[simp] theorem State.enterFault_onAir (c : FaultCause) : (s.enterFault c).engine.onAir = none := rfl
@[simp] theorem State.enterFault_conds (c : FaultCause) : (s.enterFault c).notice.conds = s.notice.conds.raiseLinkFault := rfl
@[simp] theorem State.enterRunning_state (p : BytePoint) : (s.enterRunning p).link.state = .running := by
  cases p <;> rfl
@[simp] theorem State.enterRunning_first (p : BytePoint) : (s.enterRunning p).link.firstPending = true := by
  cases p <;> rfl
@[simp] theorem State.endTransaction_readOut (n : Nat) : (s.endTransaction n).port.readOut = [] := rfl
@[simp] theorem State.endTransaction_task (n : Nat) : (s.endTransaction n).port.task = s.port.task := rfl
@[simp] theorem State.endTransaction_result (n : Nat) : (s.endTransaction n).port.result = s.port.result := rfl
@[simp] theorem State.endTransaction_refused (n : Nat) : (s.endTransaction n).port.refused = s.port.refused := rfl
@[simp] theorem State.begin_task (t : PortTask) : (s.begin t).port.task = some t := rfl
@[simp] theorem State.begin_busy (t : PortTask) : (s.begin t).busy = true := rfl
@[simp] theorem State.finish_task (r : Result) : (s.finish r).port.task = none := rfl
@[simp] theorem State.finish_result (r : Result) : (s.finish r).port.result = some r := rfl
@[simp] theorem State.finish_busy (r : Result) : (s.finish r).busy = false := rfl
@[simp] theorem State.takeStatus_conds : s.takeStatus.notice.conds = Conditions.none := rfl
@[simp] theorem State.takeStatus_readOut : s.takeStatus.port.readOut = s.statusResponse := rfl
@[simp] theorem State.install_generation (n : SlotNo) (x : Session) (b : Bool) (e : Entry) :
    (s.install n x b e).engine.generation = s.engine.generation + 1#16 := rfl
@[simp] theorem State.retireLive_generation (key : Key) (v : Live) :
    (s.retireLive key v).engine.generation = s.engine.generation + 1#16 := rfl
@[simp] theorem State.startCycle_cycle : s.startCycle.engine.cycle = s.engine.cycle + 1#16 := rfl
@[simp] theorem State.startCycle_phase : s.startCycle.engine.phase = .carry := rfl
@[simp] theorem State.startCycle_onAir : s.startCycle.engine.onAir = some (.cycleStart s.cycleStartFrame) := rfl
@[simp] theorem State.closeCycle_phase : s.closeCycle.engine.phase = .between := rfl
@[simp] theorem State.countFrame_frames (src : Source) (k : Key) :
    (s.countFrame src k).engine.frames = s.engine.frames + 1#16 := rfl

end Sys2Proof.Machine
end

