-- ==== Sys2Proof/Laws/Port.lean ====
section
/-! SUPPORT. Everything the command port's shared operations can do: a transaction is ignored under reset, discarded while BUSY,
or accepted; a completion fills the result slot. -/

namespace Sys2Proof.Machine

variable (s : State)

/-- Under reset the port ignores a transaction (R144, R151). -/
theorem State.gated_in_reset (n : Nat) (act : State → State) (h : s.rstn = false) : s.gated n act = s := by
  simp [State.gated, h]

/-- While BUSY a transaction is discarded: REFUSED is set, the read-out buffer emptied (R146, R147). -/
theorem State.gated_busy (n : Nat) (act : State → State) (hr : s.rstn = true) (h : s.busy = true) :
    s.gated n act = { s with port := { (s.endTransaction n).port with refused := true } } := by
  simp [State.gated, hr, h]

/-- Otherwise the command is accepted: REFUSED is cleared and the act runs (R147). -/
theorem State.gated_idle (n : Nat) (act : State → State) (hr : s.rstn = true) (h : s.busy = false) :
    s.gated n act = act { s with port := { (s.endTransaction n).port with refused := false } } := by
  simp [State.gated, hr, h]

/-- An accepted command holds the port BUSY until it completes (R147). -/
theorem State.accept_idle (args : List Byte) (c : Command) (hr : s.rstn = true) (h : s.busy = false) :
    s.accept args c =
      { s with port := { (s.endTransaction args.length).port with refused := false, task := some (.command c) } } := by
  rw [State.accept, State.gated_idle s _ _ hr h]; rfl

/-- A command in progress completes with its act and its result (R147). -/
theorem execCommandCompletion_command (c : Command) (h : s.port.task = some (.command c)) :
    execCommandCompletion s = .next (s.completeCommand c) := by
  simp [execCommandCompletion, h]

/-- Every completion leaves the port not BUSY with the command's result (R147). -/
theorem State.completeCommand_port (c : Command) :
    (s.completeCommand c).busy = false ∧ (s.completeCommand c).port.result = some (runCommand c s).2 := ⟨rfl, rfl⟩

/-- A refused command changes nothing but the result slot and BUSY (R34, R40, R42, R50, R54, R96). -/
theorem State.completeCommand_refused (c : Command) (r : Result) (h : runCommand c s = (s, r)) :
    s.completeCommand c = s.finish r := by
  simp [State.completeCommand, h]

/-- A code outside the command table is none of its numbers (R158). -/
theorem commandCodes_not (code : Byte) (h : commandCodes.contains code = false) :
    ∀ n ∈ [0x01, 0x02, 0x03, 0x10, 0x11, 0x12, 0x13, 0x18, 0x19, 0x20, 0x28, 0x29, 0x2A, 0x30, 0x31, 0x3F], code.toNat ≠ n := by
  intro n hn hc
  obtain rfl : code = BitVec.ofNat 8 n := BitVec.eq_of_toNat_eq (by simp; omega)
  revert h
  fin_cases hn <;> decide

/-- UNKNOWN with a code outside the command table is accepted like any command (R149). -/
theorem execUnknown_outside (code : Byte) (args : List Byte) (h : commandCodes.contains code = false) :
    execUnknown code args s = .next (s.accept args .unknown) := by
  have n := commandCodes_not code h
  unfold execUnknown
  split <;> simp_all

/-- Byte 0 outside the command table is the row UNKNOWN (R149, R158). -/
theorem instrOfFrame_outside (code : Byte) (args : List Byte) (h : commandCodes.contains code = false) :
    instrOfFrame (code :: args) = .unknown code args := by
  have n := commandCodes_not code h
  unfold instrOfFrame
  split <;> simp_all

end Sys2Proof.Machine
end

