-- ==== Sys2Proof/Tests/Slice0.lean ====
section
/-! SUPPORT. Small tests: the form of the commands, worked examples of the spec, and for every obligation with hypotheses a state and
operands that meet all of them together (the theorems named witness_<obligation>). -/

namespace Sys2Proof.Tests

open Sys2Proof Sys2Proof.Machine

/-! ## Builders -/

/-- The state after a row; the state itself where the row stops. -/
def after (i : Instr) (s : State) : State :=
  match exec i s with
  | .next t => t
  | _ => s

/-- A ready device with a short free list, so that a test stays small. -/
def idle : State :=
  { State.reset with
    pool := { free := [20, 21, 22, 23, 24, 25], hold := none, mem := [] }
    port := { State.reset.port with task := none } }

/-- A STORED record of 40 bytes, class 1, version 255, with a confirmation at age 9. -/
def stored40 : Live :=
  { cls := 1, version := 0xFF#8, length := 40, front := [0, 1], feed := none
    confirm := some { age := 9, overdueRaised := false }, slot := none }

/-- A FEED record of 40 bytes with the fill and freshness given. -/
def feed40 (fill : Nat) (fresh : Bool) : Live :=
  { cls := 0, version := 7#8, length := 40, front := [2, 3], feed := some { back := [4, 5], fill := fill, fresh := fresh }
    confirm := some { age := 15, overdueRaised := true }, slot := none }

/-- What a STORED record of 8 bytes leaves when it is retired. -/
def last8 : Last := { kind := .stored, cls := 2, version := 3#8, length := 8 }

def entry (key : Key) (body : Body) : Entry := { key := key, sent := false, flags := Flags.none, body := body }

/-- Entries in every state, at both ends of the key range and of a group. -/
def entries : Directory :=
  [entry 0x0001#16 (.live stored40), entry 0x1000#16 (.live (feed40 0 true)), entry 0x1FFF#16 (.withdrawing last8 1 (some 1)),
   entry 0x2000#16 (.staged 0), entry 0x3000#16 (.withdrawing last8 2 none),
   { entry 0xFFFE#16 (.spent last8) with flags := { Flags.none with withdrawn := true } }]

/-- A FULL session on the STAGED key and a FILLING one on a WITHDRAWING key. -/
def sessions : Slots :=
  #v[some { key := 0x2000#16, cls := 3, length := 64, staging := [6, 7], spare := none, fill := 64 },
     some { key := 0x1FFF#16, cls := 0, length := 32, staging := [8], spare := some [9], fill := 10 }, none, none]

def store : State := { idle with dir := entries, slots := sessions }

/-- The state with the command accepted and not completed. -/
def busyWith (c : Command) (s : State) : State := { s with port := { s.port with task := some (.command c) } }

/-- The state with the link in the state given. -/
def linkIn (l : LinkState) (s : State) : State := { s with link := { s.link with state := l, clr := true } }

/-- The state with the link RUNNING, a cycle open in the phase given, and this frame on air. -/
def running (phase : Phase) (onAir : Option AirFrame) (s : State) : State :=
  { linkIn .running s with engine := { s.engine with phase := phase, onAir := onAir, cycle := 6#16 } }

/-- The Record frame of the record at key 0x0001. -/
def frame1 : RecordFrame :=
  { key := 0x0001#16, source := .carry, version := 0xFF#8, cls := 1, kind := .stored, length := 40, stale := false, chain := [0, 1] }

def wframe (key : Key) : WithdrawalFrame := { key := key, source := .walk, version := 3#8, after := 0 }

def startFrame1 : CycleStartFrame :=
  { cycle := 6#16, generation := 0#16, liveCount := 2, carryCount := 0, first := true, truncatedPrevious := false }

def endFrame1 (truncated : Bool) : CycleEndFrame := { cycle := 6#16, frames := 0#16, truncated := truncated }

/-! ## The form of the commands -/

theorem test_unknown_refuses_a_table_code : (Instr.unknown 0x10#8 []).wellFormed = false := by decide

theorem test_unknown_accepts_another_code : (Instr.unknown 0x7F#8 []).wellFormed = true := by decide

theorem test_no_word_spells_a_command : decodeTableWord 8 0x10 = none := rfl

/-- Byte 0 of a frame names the row; the row UNKNOWN with a code of the table acts as that command's row (log 18). -/
theorem test_byte_0_names_the_command :
    instrOfFrame [0x2A#8, 0x00#8] = .notice [0x00#8] ∧ instrOfFrame [0x00#8] = .unknown 0x00#8 [] ∧
      after (.unknown 0x01#8 []) idle = after (.status []) idle ∧ (after (.unknown 0x01#8 []) idle).busy = false := by decide

/-! ## Worked examples of the spec -/

/-- The worked exchange of chapter 10: OPEN 0x3A07, class 2, length 70. -/
theorem test_open_frame :
    parseOpen [0x3A#8, 0x07#8, 0x00#8, 0x02#8, 0x00#8, 0x46#8] = .openSession 0x3A07#16 .stored 2 70 := by decide

/-- The port status byte of that exchange: RUNNING with a frame on air is 0x0B, with BUSY 0x8B, with READY and REFUSED 0x6B. -/
theorem test_status_byte :
    (running .walk (some .abort) idle).statusByte = 0x0B#8 ∧
      (busyWith .notice (running .walk (some .abort) idle)).statusByte = 0x8B#8 ∧
      { running .walk (some .abort) idle with
        port := { idle.port with result := some (Result.ok []), refused := true } }.statusByte = 0x6B#8 := by decide

/-- T1 of the exchange: slot 0, three blocks, a STAGED entry. -/
theorem test_open_completes :
    let t := after .commandCompletion (after (.openSession [0x3A#8, 0x07#8, 0x00#8, 0x02#8, 0x00#8, 0x46#8]) idle)
    t.port.result = some { code := .ok, bytes := [0x00#8] } ∧ t.pool.free = [23, 24, 25] ∧
      t.dir = [stagedEntry 0x3A07#16 0] ∧ t.busy = false := by decide

/-- CRC-16 with polynomial 0x8BB7 from 0xFFFF: an empty coverage leaves the register, and one bit of 1 shifts it. -/
theorem test_check_code : checkCode [] = 0xFFFF#16 ∧ crcBit 0x8000#16 true = 0x0000#16 ∧
    crcBit 0x0000#16 true = 0x8BB7#16 := by decide

/-- An Abort is its marker and its type; a Withdrawal frame's covered bytes follow the table of chapter 08. -/
theorem test_frame_bytes :
    AirFrame.abort.lineBytes [] = [0xE7#8, 0x3F#8] ∧
      (AirFrame.withdrawal (wframe 0x1FFF#16)).covered [] = [0x1F#8, 0xFF#8, 0x03#8, 0x00#8] := by decide

/-- The worked Record frame of chapter 08: the 9 bytes its check code covers, and its cost as its length (13). -/
theorem test_record_frame_bytes :
    let f := AirFrame.record { key := 0x3A07#16, source := .walk, version := 5#8, cls := 2, kind := .stored, length := 3, stale := false
                               chain := [1] }
    f.covered [(32, 0x10#8), (33, 0xE7#8), (34, 0x20#8)] =
        [0x3A#8, 0x07#8, 0x05#8, 0x02#8, 0x00#8, 0x03#8, 0x10#8, 0xE7#8, 0x20#8] ∧ f.byteLength = 13 := by decide

/-- The worked Cycle Start frame of chapter 08. -/
theorem test_cycle_start_frame_bytes :
    (AirFrame.cycleStart { cycle := 41#16, generation := 63#16, liveCount := 5, carryCount := 4, first := false
                           truncatedPrevious := false }).covered [] =
      [0x00#8, 0x29#8, 0x00#8, 0x3F#8, 0x00#8, 0x05#8, 0x04#8, 0x00#8] := by decide

/-- A payload byte 0xE7 is sent twice (R125). -/
theorem test_escape : [0x20#8, 0xE7#8].flatMap escape = [0x20#8, 0xE7#8, 0xE7#8] := by decide

/-- Length 1024 takes 32 blocks, length 1 one, length 0 none; FEED takes twice that (R5, R22). -/
theorem test_blocks : blocksFor 1024 = 32 ∧ blocksFor 1 = 1 ∧ blocksFor 0 = 0 ∧ blocksTaken .feed 33 = 4 := by decide

/-- A COMMIT of a version while the old one is on air puts the old chain into the hold; the frame's end frees it (R28, R29). -/
theorem test_hold :
    let s := running .walk (some (.record frame1)) store
    let p := s.pool.displace s.engine.onAir 0x0001#16 stored40
    p.hold = some [0, 1] ∧ p.free = s.pool.free ∧ p.releaseHold.free = s.pool.free ++ [0, 1] := by decide

/-- A RETIRE GROUP walk of group 1: one LIVE entry retired, one skipped, then the counts. -/
theorem test_retire_group :
    let s := after .retireGroupVisit (after .retireGroupVisit (after .retireGroupVisit (after (.retireGroup [0x01#8]) store)))
    s.port.result = some { code := .ok, bytes := [0x00#8, 0x01#8, 0x00#8, 0x01#8] } ∧ s.engine.generation = 1#16 := by decide

/-- The last Withdrawal frame with a slot open holds the count at 1 (R16). -/
theorem test_withdrawal_held :
    (entries.withdrawalSent 0x1FFF#16 true).entryOf 0x1FFF#16 =
      some { entry 0x1FFF#16 (.withdrawing last8 1 (some 1)) with sent := true } := by decide

/-- A first bare cycle: Cycle Start, a choice with nothing to send, Cycle End with the count at 1 (R87). -/
theorem test_bare_cycle :
    let s := after .frameChoice (after .cycleStartFrameEnd (after .cycleStart
      { linkIn .running idle with link := { (linkIn .running idle).link with firstPending := true } }))
    s.engine.bare = 1 ∧ s.engine.onAir = some (.cycleEnd { cycle := 1#16, frames := 0#16, truncated := false }) ∧
      (after .cycleEndFrameEnd s).encoder.gap = 2 := by decide

/-- A device with an Abort that waits behind these bytes. -/
def abortBehind (lead : List Byte) : State :=
  { running .between none idle with encoder := { Encoder.idle with waiting := some { lead := lead, frame := .abort } } }

/-- STOP IMMEDIATE while the marker of a frame is on the line: no frame is on air until that byte has been sent; then the Abort is, and its
end halts the link (R90, R116, R127). -/
theorem test_abort_starts_at_the_byte_boundary :
    let s := after (.stop [0x01#8]) (running .walk (some (.record frame1)) store)
    s.engine.onAir = none ∧ s.txdByte = some 0xE7#8 ∧ s.encoder.waiting = some { lead := [0xE7#8], frame := .abort } ∧
      (byteTime s).engine.onAir = some .abort ∧ (byteTime s).line = [0xE7#8] ∧
      (after .abortFrameEnd s).line = [0xE7#8, 0xE7#8, 0x3F#8] ∧ (after .abortFrameEnd s).link.state = .halted := by
  decide +kernel

/-- A device that has just started a cycle. -/
def cycleStarted : State :=
  let b := running .between none idle
  after .cycleStart { b with link := { b.link with firstPending := true } }

/-- CYC is high with the marker of the Cycle Start frame on the line and falls as that byte-time ends, whether a step on an empty queue, the
pulse's end or the frame's end sends it; a second pulse end changes nothing (R108, R129). -/
theorem test_cyc_is_the_markers_byte_time :
    let p := after .cycPulseEnd cycleStarted
    (cycleStarted.link.cyc = true ∧ cycleStarted.txdByte = some 0xE7#8) ∧
      (p.link.cyc = false ∧ p.line = [0xE7#8] ∧ p.txdByte = some 0x31#8 ∧ after .cycPulseEnd p = p) ∧
      byteTime cycleStarted = p ∧ (after .cycleStartFrameEnd cycleStarted).link.cyc = false := by decide +kernel

/-- STOP IMMEDIATE on that marker: it is finished with CYC high, and the Abort starts as CYC falls (R90, R108). -/
theorem test_cyc_completes_before_the_abort :
    let s := after (.stop [0x01#8]) cycleStarted
    (s.link.cyc = true ∧ s.txdByte = some 0xE7#8 ∧ s.engine.onAir = none) ∧
      (after .cycPulseEnd s).link.cyc = false ∧ (after .cycPulseEnd s).engine.onAir = some .abort := by decide +kernel

/-- STOP FRAME with no frame on air: the truncated Cycle End starts behind the gap byte on the line, at once where none is left (R89). -/
theorem test_cycle_end_starts_at_the_byte_boundary :
    let w := running .walk none store
    let s := after (.stop [0x02#8]) { w with encoder := { Encoder.idle with gap := 1 } }
    s.engine.onAir = none ∧ s.txdByte = some 0xAA#8 ∧
      (byteTime s).engine.onAir = some (.cycleEnd (endFrame1 true)) ∧
      (after (.stop [0x02#8]) w).engine.onAir = some (.cycleEnd (endFrame1 true)) := by decide

/-- In an open cycle the line carries the gap bytes and no more: it waits for the choice (R124). -/
theorem test_gap_bytes_and_no_more :
    let s := { running .walk none store with encoder := { Encoder.idle with gap := 1 } }
    (byteTime s).line = [0xAA#8] ∧ (byteTime s).encoder.gap = 0 ∧ (byteTime s).txdByte = none ∧
      (byteTime (byteTime s)).line = [] ∧ (after .frameChoice (byteTime s)).line = [] := by decide

/-- While pacing waits the line carries idle fill; the cycle starts at the end of the fill byte in which pacing expires (R113). At
9,600 bit/s, 1 ms ends inside a byte. -/
theorem test_pacing_expires_in_a_fill_byte :
    let b := running .between none store
    let s := { b with link := { b.link with pacing := .running 1 } }
    let e := after .pacingTimerExpiry s
    (byteTime (byteTime s)).line = [0xAA#8] ∧ (after .cycleStart e).line = [0xAA#8] ∧
      (byteTime e).line = [0xAA#8] ∧ (byteTime (byteTime e)).line = [] ∧ (after .cycleStart (byteTime e)).line = [] := by decide

/-- On a byte boundary the cycle starts at once, pacing expired or RUNNING entered (R112, R113): at 9,600 bit/s, 1,000 ms are 1,200
byte-times and 20 ms are 24, the values after reset; 1 ms ends inside a byte. -/
theorem test_expiry_on_a_byte_boundary :
    let b := running .between none store
    let e := after .pacingTimerExpiry { b with link := { b.link with pacing := .running 1000 } }
    let k := fun ms => after .keyUpTimerExpiry { linkIn .keying store with
      link := { (linkIn .keying store).link with keyUp := some ms, clr := true } }
    e.rowDue = true ∧ (after .cycleStart e).line = [] ∧ (k 20).link.state = .running ∧ (k 20).rowDue = true ∧
      (after .cycleStart (k 20)).line = [] ∧ (k 1).rowDue = false ∧ (after .cycleStart (k 1)).line = [0xAA#8] := by decide

/-- A choice comes behind the gap bytes (R74, R124), and a frame's end behind the rest of its bytes (R127). -/
theorem test_line_before_a_row :
    (after .frameChoice { running .walk none store with encoder := { Encoder.idle with gap := 2 } }).line = [0xAA#8, 0xAA#8] ∧
      (after .abortFrameEnd (running .between (some .abort) idle)).line = [0xE7#8, 0x3F#8] ∧
      (after .abortFrameEnd (byteTime (running .between (some .abort) idle))).line = [0x3F#8] := by decide +kernel

/-- An unwritten byte reads as zero and writing it lists nothing (log 10). -/
theorem test_memory_form : Memory.write [] 5 0x00#8 = [] ∧ Memory.write [(5, 1#8)] 5 0x00#8 = [] ∧
    Memory.read [(5, 1#8)] 4 = 0x00#8 := by decide

/-! ## Witnesses: the hypotheses of each obligation, met together, at the ends of their ranges -/

theorem witness_StepTakesTheFrontOfTheQueue :
    { store with pending := [.start [], .cycPulseEnd] }.pending = .start [] :: [.cycPulseEnd] := rfl

/-- The line at the instant of a choice and of a cycle start, and before each. -/
theorem witness_EmptyQueueIsOneByteTime_between_bytes :
    let b := { running .between none store with link := { (running .between none store).link with firstPending := true } }
    (running .walk none store).rowDue = true ∧ b.rowDue = true ∧
      { b with encoder := { Encoder.idle with gap := 1 } }.rowDue = false ∧ (linkIn .keying store).rowDue = false := by decide

theorem witness_EmptyQueueIsOneByteTime :
    (store.pending = [] ∧ store.link.state.keyed = false) ∧
    ((running .walk none store).pending = [] ∧ (running .walk none store).link.state.keyed = true ∧
      (running .walk none store).engine.onAir = none ∧ (running .walk none store).encoder.waiting = none) ∧
    ((abortBehind [0xE7#8, 0xE7#8]).pending = [] ∧ (abortBehind [0xE7#8, 0xE7#8]).link.state.keyed = true ∧
      (abortBehind [0xE7#8, 0xE7#8]).engine.onAir = none ∧
      (abortBehind [0xE7#8, 0xE7#8]).encoder.waiting = some { lead := [0xE7#8, 0xE7#8], frame := .abort } ∧
      (abortBehind [0xAA#8]).encoder.waiting = some { lead := [0xAA#8], frame := .abort }) ∧
    ((running .walk (some .abort) store).link.state.keyed = true ∧
      (running .walk (some .abort) store).engine.onAir = some .abort) := by decide

theorem witness_PowerOnResetStillsTheDevice : Instr.status ∈ portRows 0x7F#8 ∧ Instr.clear ∈ portRows 0x7F#8 := by
  simp [portRows, gatedRows]

theorem witness_InitialisationGivesThePowerOnValues :
    (State.reset.rstn = true ∧ State.reset.port.task = some .initialisation) ∧
    (State.reset.pool.mem = [] ∧ State.reset.link.clr = false ∧ State.reset.freeCount = 0 ∧ State.reset.pending = []) :=
  ⟨⟨rfl, rfl⟩, rfl, rfl, rfl, rfl⟩

theorem witness_TransactionsShowStatusThenReadOut :
    (store.rstn = true ∧ store.port.csn = none) ∧ Instr.stop ∈ portRows 0x00#8 ∧ Instr.unknown 0x00#8 ∈ portRows 0x00#8 ∧
      0 < [0x02#8].length := by
  simp [portRows, gatedRows]; decide

theorem witness_BusyPortDiscards : commandCodes.contains 0x7F#8 = false ∧
    Instr.unknown 0x7F#8 ∈ gatedRows 0x7F#8 ∧ Instr.clear ∈ gatedRows 0x7F#8 ∧
      (busyWith .notice store).rstn = true ∧ (busyWith .notice store).busy = true := by
  simp [gatedRows]; decide

theorem witness_ResultIsReadOnce :
    (store.rstn = true ∧ (busyWith .notice store).busy = true ∧
      (after .commandCompletion (busyWith .notice store)).busy = false) ∧
    (let w := { store with port := { store.port with task := some (.groupWalk 14 none 0 0) } }
     w.busy = true ∧ (after .retireGroupVisit w).busy = false) ∧
    (let c := { store with port := { store.port with task := some .clearing } }
     c.busy = true ∧ (after .clearCompletion c).busy = false) ∧
    ({ store with port := { store.port with result := some (Result.ok []) } }.busy = false ∧
      { store with port := { store.port with result := some (Result.ok []) } }.port.result = some (Result.ok [])) ∧
    (store.busy = false ∧ store.port.result = none) := by decide

theorem witness_StatusReportsAndEmptiesTheConditions : store.rstn = true := rfl

theorem witness_ShortAndUnknownFrames :
    commandCodes.contains 0x00#8 = false ∧ commandCodes.contains 0xFF#8 = false ∧ commandCodes.contains 0x04#8 = false ∧
      [1#8, 2#8, 3#8, 4#8, 5#8].length < 6 ∧ [1#8, 2#8, 3#8].length < 4 ∧ [7#8].length < (0x02#8).toNat ∧ [1#8].length < 2 ∧
      ([] : List Byte).length < 1 ∧ [1#8, 2#8, 3#8, 4#8].length < 5 ∧ [1#8, 2#8].length < 3 ∧
      (busyWith .short store).Runs .short ∧ (busyWith .unknown store).Runs .unknown ∧ store.Ready := by decide

theorem witness_OpenTakesTheLowestFreeSlot :
    let c := fun (key : Key) (kind : Kind) (cls length : Nat) => busyWith (.openSession key kind cls length) store
    (store.slots.at 2 = none ∧ ∀ m, m < (2 : SlotNo) → store.slots.at m ≠ none) ∧
    ((c 0x0002#16 .stored 3 0).Runs (.openSession 0x0002#16 .stored 3 0) ∧ store.slots.holds 0x0002#16 = false ∧
      store.dir.entryOf 0x0002#16 = none ∧ store.dir.length < 256 ∧ (0 + 31) / 32 ≤ store.pool.free.length) ∧
    ((c 0x0001#16 .feed 0 96).Runs (.openSession 0x0001#16 .feed 0 96) ∧ store.slots.holds 0x0001#16 = false ∧
      (store.dir.entryOf 0x0001#16).any Entry.isSpent = false ∧
      store.dir.entryOf 0x0001#16 = some (entry 0x0001#16 (.live stored40)) ∧
      2 * ((96 + 31) / 32) ≤ store.pool.free.length) ∧
    (store.slots.holds 0x3000#16 = false ∧
      store.dir.entryOf 0x3000#16 = some (entry 0x3000#16 (.withdrawing last8 2 none))) ∧
    0x0002#16 ≠ 0x3000#16 := by decide

/-- Every check of OPEN fails somewhere with all those before it passed. -/
theorem witness_OpenChecksInOrder :
    let full : Slots := Vector.replicate 4 (sessions.at 0)
    badKey 0xFFFF#16 = true ∧ (badKey 0xFFFE#16 = false ∧ badKey 0x0001#16 = false) ∧ 1024 < 1025 ∧ 3 < 4 ∧
      store.slots.holds 0x2000#16 = true ∧
      (store.slots.holds 0xFFFE#16 = false ∧ (store.dir.entryOf 0xFFFE#16).any Entry.isSpent = true) ∧
      (full.holds 0x0001#16 = false ∧ ∀ n, full.at n ≠ none) ∧
      store.pool.free.length < 1 * ((1024 + 31) / 32) ∧
      (busyWith (.openSession 0x0001#16 .stored 0 1024) store).Runs (.openSession 0x0001#16 .stored 0 1024) := by decide

/-- A directory at its 256 entries with a slot free and no entry of the key: TABLE_FULL. -/
theorem witness_OpenChecksInOrder_full_table :
    let d : Directory := (List.range 256).map (fun i => entry (BitVec.ofNat 16 (2 * i + 1)) (.spent last8))
    Directory.entryOf d 0x0002#16 = none ∧ 256 ≤ d.length ∧ idle.slots.lowestFree = some 0 := by decide +kernel

theorem witness_WritePlacesItsBytes :
    let v := busyWith (.write 1 10 (List.replicate 22 1#8)) store
    v.Runs (.write (1 : SlotNo).val 10 (List.replicate 22 1#8)) ∧ 1 ≤ (List.replicate 22 1#8).length ∧
      (List.replicate 22 1#8).length ≤ 64 ∧
      v.slots.at 1 = some { key := 0x1FFF#16, cls := 0, length := 32, staging := [8], spare := some [9], fill := 10 } ∧
      10 + (List.replicate 22 1#8).length ≤ 32 ∧ v.pool.mem.wf ∧ [8].Nodup ∧
      [8][(10 + 21) / 32]? = some 8 ∧ (List.replicate 22 1#8)[21]? = some 1#8 := by decide

theorem witness_WriteChecksInOrder :
    (busyWith (.write 4 0 [1#8]) store).Runs (.write 4 0 [1#8]) ∧ (0 : SlotNo).val = 0 ∧
      (64 < (List.replicate 65 0#8).length) ∧ store.slots.at 2 = none ∧
      (∃ x, store.slots.at 1 = some x ∧ 9 ≠ x.fill ∧ 10 = x.fill ∧ x.length < 10 + 23) ∧
      ∃ x, store.slots.at 0 = some x ∧ x.fill = x.length ∧ 63 ≠ x.length ∧ 64 = x.length := by decide

theorem witness_CommitInstallsTheVersion :
    (busyWith (.commit 0 true) (linkIn .dormant store)).Runs (.commit (0 : SlotNo).val true) ∧
      (busyWith (.commit 0 true) (linkIn .dormant store)).link.state = .dormant ∧
      ∃ x, store.slots.at 0 = some x ∧ x.fill = x.length ∧
        store.dir.entryOf x.key = some (entry 0x2000#16 (.staged 0)) := by decide

/-- A COMMIT on an entry in each state: STAGED, LIVE at version 255, WITHDRAWING. -/
theorem witness_CommitVersion :
    let x := fun (key : Key) => some { key := key, cls := 0, length := 0, staging := [], spare := none, fill := 0 }
    let s := fun (key : Key) => busyWith (.commit 3 false) { store with slots := #v[none, none, none, x key] }
    (s 0x2000#16).Runs (.commit (3 : SlotNo).val false) ∧
      (∃ x, (s 0x0001#16).slots.at 3 = some x ∧ x.fill = x.length ∧
        (s 0x0001#16).dir.entryOf x.key = some (entry 0x0001#16 (.live stored40))) ∧
      (∃ x, (s 0x3000#16).slots.at 3 = some x ∧
        (s 0x3000#16).dir.entryOf x.key = some (entry 0x3000#16 (.withdrawing last8 2 none))) ∧
      ∃ x, (s 0x2000#16).slots.at 3 = some x ∧
        (s 0x2000#16).dir.entryOf x.key = some (entry 0x2000#16 (.staged 0)) := by decide

theorem witness_CommitAndRetireMoveTheChains :
    (frame1.key = 0x0001#16 ∧ frame1.chain = stored40.front ∧ stored40.front ≠ [] ∧ store.pool.hold = none) ∧
      ∀ v, Body.staged 0 ≠ .live v := ⟨by decide, nofun⟩

theorem witness_CommitChecksInOrder :
    (busyWith (.commit 255 true) store).Runs (.commit 255 true) ∧ 3 < 255 ∧ store.slots.at 3 = none ∧
      (∃ x, store.slots.at 1 = some x ∧ x.fill ≠ x.length) ∧ ∃ x, store.slots.at 0 = some x ∧ x.fill = x.length := by
  decide

theorem store_bindingOk : store.bindingOk := by
  refine ⟨fun n x h => ?_, fun e he n h => ?_⟩
  · fin_cases n
    · obtain rfl := Option.some.inj (h : some _ = some x)
      exact ⟨entry 0x2000#16 (.staged 0), by decide, rfl, rfl⟩
    · obtain rfl := Option.some.inj (h : some _ = some x)
      exact ⟨entry 0x1FFF#16 (.withdrawing last8 1 (some 1)), by decide, rfl, rfl⟩
    · exact absurd (h : none = some x) nofun
    · exact absurd (h : none = some x) nofun
  · revert n
    revert e
    decide

theorem witness_CancelEndsTheSession :
    let v := fun n => busyWith (.cancel n) store
    ((v 4).Runs (.cancel 4) ∧ 3 < 4) ∧ (v 3).slots.at 3 = none ∧
      (∃ x, (v 0).slots.at 0 = some x ∧ (v 0).dir.entryOf x.key = some (entry 0x2000#16 (.staged 0)) ∧
        (entry 0x2000#16 (.staged 0)).isStaged = true) ∧
      ∃ x, (v 1).slots.at 1 = some x ∧
        (v 1).dir.entryOf x.key = some (entry 0x1FFF#16 (.withdrawing last8 1 (some 1))) := by decide

theorem witness_RetireMakesTheEntryWithdrawing :
    (busyWith (.retire 0x0001#16) store).Runs (.retire 0x0001#16) ∧ 0x0001#16 ≠ 0x0000#16 ∧ 0x0001#16 ≠ 0xFFFF#16 ∧
      store.dir.entryOf 0x0001#16 = some (entry 0x0001#16 (.live stored40)) ∧
      (entry 0x0001#16 (.live stored40)).body = .live stored40 := by decide

theorem witness_RetireChecksInOrder :
    (busyWith (.retire 0xFFFF#16) store).Runs (.retire 0xFFFF#16) ∧ store.dir.entryOf 0x0002#16 = none ∧
      store.dir.entryOf 0x2000#16 = some (entry 0x2000#16 (.staged 0)) ∧
      store.dir.entryOf 0x0001#16 = some (entry 0x0001#16 (.live stored40)) := by decide

theorem witness_RetireGroupWalksTheGroup :
    (store.Ready ∧ 15 < (0x10#8).toNat ∧ (0x0F#8).toNat ≤ 15) ∧ store.directoryOk ∧
      (let s := { store with port := { store.port with task := some (.groupWalk 1 none 0 0) } }
       s.port.task = some (.groupWalk 1 none 0 0) ∧ entry 0x1000#16 (.live (feed40 0 true)) ∈ s.dir ∧
         (0x1000#16).toNat / 4096 = 1 ∧ (0x1FFF#16).toNat / 4096 = 1 ∧
         ∀ x ∈ s.dir, x.key.toNat / 4096 = 1 → 0x1000#16 ≤ x.key) ∧
      (∀ x ∈ store.dir, x.key.toNat / 4096 = 1 → 0x1000#16 < x.key → 0x1FFF#16 ≤ x.key) ∧
      ∀ e ∈ store.dir, ¬ e.key.toNat / 4096 = 14 := by decide

theorem witness_FeedPlacesThePiece :
    let v := busyWith (.feed 0x1000#16 0 (List.replicate 40 1#8)) store
    v.Runs (.feed 0x1000#16 0 (List.replicate 40 1#8)) ∧ 1 ≤ (List.replicate 40 1#8).length ∧
      (List.replicate 40 1#8).length ≤ 64 ∧
      v.dir.entryOf 0x1000#16 = some (entry 0x1000#16 (.live (feed40 0 true))) ∧
      (feed40 0 true).feed = some { back := [4, 5], fill := 0, fresh := true } ∧
      0 + (List.replicate 40 1#8).length = (feed40 0 true).length ∧ 0 + 39 < (feed40 0 true).length ∧
      v.pool.mem.wf ∧ [4, 5].Nodup ∧ [4, 5][(0 + 39) / 32]? = some 5 := by decide

theorem witness_FeedChecksInOrder :
    (busyWith (.feed 0x0000#16 0 []) store).Runs (.feed 0x0000#16 0 []) ∧ 64 < (List.replicate 65 0#8).length ∧
      store.dir.entryOf 0x0002#16 = none ∧
      store.dir.entryOf 0xFFFE#16 = some { entry 0xFFFE#16 (.spent last8) with flags := { Flags.none with withdrawn := true } } ∧
      stored40.feed = none ∧ (feed40 39 false).feed = some { back := [4, 5], fill := 39, fresh := false } ∧
      (feed40 39 false).length < 39 + 2 := by decide

theorem witness_ReadChecksAndAnswers :
    (busyWith (.read 0x0001#16 39 1) store).Runs (.read 0x0001#16 39 1) ∧ 64 < 65 ∧ store.dir.entryOf 0x0002#16 = none ∧
      store.dir.entryOf 0x2000#16 = some (entry 0x2000#16 (.staged 0)) ∧
      store.dir.entryOf 0x0001#16 = some (entry 0x0001#16 (.live stored40)) ∧ stored40.length < 39 + 2 ∧
      39 + 1 ≤ stored40.length ∧ stored40.front[(39 + 0) / 32]? = some 1 := by decide

/-- An entry in each state, with and without the fields a state may lack. -/
theorem witness_QueryReportsTheEntry :
    (busyWith (.query 0x0001#16) store).Runs (.query 0x0001#16) ∧
      store.dir.entryOf 0x0001#16 = some (entry 0x0001#16 (.live stored40)) ∧
      store.dir.entryOf 0x1000#16 = some (entry 0x1000#16 (.live (feed40 0 true))) ∧
      store.dir.entryOf 0x1FFF#16 = some (entry 0x1FFF#16 (.withdrawing last8 1 (some 1))) ∧
      store.dir.entryOf 0x2000#16 = some (entry 0x2000#16 (.staged 0)) ∧
      store.dir.entryOf 0xFFFE#16 = some { entry 0xFFFE#16 (.spent last8) with flags := { Flags.none with withdrawn := true } } ∧
      store.dir.entryOf 0x0002#16 = none := by decide

theorem witness_NoticeCollectsInScanOrder :
    let v := busyWith .notice store
    let e := { entry 0xFFFE#16 (.spent last8) with flags := { Flags.none with withdrawn := true } }
    (v.directoryOk ∧ v.Runs .notice ∧ e ∈ v.dir ∧ e.flags ≠ Flags.none ∧ v.notice.cursor < e.key ∧
      ∀ x ∈ v.dir, x.flags ≠ Flags.none → v.notice.cursor < x.key → e.key ≤ x.key) ∧
    (e.key ≤ 0xFFFE#16 ∧ ∀ x ∈ v.dir, x.flags ≠ Flags.none → x.key ≤ 0xFFFE#16 ∧ e.key ≤ x.key) ∧
    ((busyWith .notice idle).directoryOk ∧ ∀ x ∈ (busyWith .notice idle).dir, x.flags = Flags.none) := by decide

theorem witness_StartKeysTheLink :
    (busyWith .start store).Runs .start ∧ (busyWith .start store).link.state = .halted ∧
      (linkIn .fault store).link.state = .fault ∧ (linkIn .dormant store).link.state ≠ .halted ∧
      (linkIn .dormant store).link.state ≠ .fault := by decide

theorem witness_ConfigureFollowsTheTable :
    (busyWith (.configure 0x04#8 15) store).Runs (.configure 0x04#8 15) ∧ store.link.state = .halted ∧
      (linkIn .running store).link.state ≠ .halted ∧ (linkIn .running store).link.state ≠ .fault ∧
      (∀ row ∈ configureTable, row.1 ≠ 0x0C#8 ∧ row.1 ≠ 0x00#8) ∧
      (∃ row ∈ configureTable, row.1 = 0x04#8 ∧ row.2.1 ≤ 1 ∧ 15 ≤ row.2.2.1 ∧ 0 < row.2.1 ∧ row.2.2.1 < 16) ∧
      ∃ row ∈ configureTable, row.1 = 0x02#8 ∧ row.2.1 ≤ 64 ∧ 65535 ≤ row.2.2.1 ∧ 63 < row.2.1 := by
  refine ⟨by decide, by decide, by decide, by decide, ?_, ?_, ?_⟩
  · intro row h
    simp only [configureTable, List.mem_cons, List.not_mem_nil, or_false] at h
    rcases h with h | h | h | h | h | h | h | h | h | h | h <;> subst h <;> decide
  · exact ⟨_, List.mem_cons_of_mem _ (List.mem_cons_of_mem _ (List.mem_cons_of_mem _ (List.mem_cons_self ..))), by decide⟩
  · exact ⟨_, List.mem_cons_of_mem _ (List.mem_cons_self ..), by decide⟩

theorem witness_ClearEmptiesTheRecordStore :
    (store.Ready ∧ store.link.state = .halted) ∧ ((linkIn .dormant store).Ready ∧ (linkIn .dormant store).link.state ≠ .halted ∧
      (linkIn .dormant store).link.state ≠ .fault) ∧
      { store with port := { store.port with task := some .clearing } }.port.task = some .clearing := by decide

theorem witness_StopOutsideRunningHalts :
    (store.rstn = true ∧ store.link.state = .halted) ∧ (linkIn .keying store).link.state ≠ .halted ∧
      (linkIn .keying store).link.state ≠ .running ∧ (linkIn .fault store).link.state ≠ .running := by decide

def stopping (p : StopPoint) (s : State) : State := { s with link := { s.link with stop := p } }

theorem witness_StopInRunningSetsTheEarlierPoint :
    let s := running .walk (some (.record frame1)) store
    (s.rstn = true ∧ s.link.state = .running ∧ s.link.stop = .none ∧ s.engine.onAir ≠ none) ∧
      (stopping .immediate s).link.stop = .immediate ∧ (stopping .frame s).link.stop = .frame ∧
      (stopping .cycle (running .carry none store)).engine.phase ≠ .between ∧
      (let b := running .between none store
       b.link.state = .running ∧ b.link.stop ≠ .immediate ∧ b.engine.phase = .between ∧ b.engine.onAir = none) ∧
      (running .between (some (.cycleEnd (endFrame1 false))) store).engine.onAir = some (.cycleEnd (endFrame1 false)) ∧
      (running .between (some .abort) store).engine.onAir = some .abort ∧ (0x00#8 ≠ 2#8 ∧ 0x00#8 ≠ 3#8) := by decide

/-- A Cycle End on air in mid-byte, at the end of its last byte, and one that waits. -/
theorem witness_StopInRunningSetsTheEarlierPoint_boundary :
    let s := running .between (some (.cycleEnd (endFrame1 false))) store
    let e := { s with encoder := { Encoder.idle with place := 9 } }
    let w := stopping .frame { running .between none store with
      encoder := { Encoder.idle with waiting := some { lead := [0xAA#8], frame := .cycleEnd (endFrame1 true) } } }
    (s.nextEnding = some (.cycleEnd (endFrame1 false)) ∧ s.bytesToFinish ≠ []) ∧
      (e.nextEnding = some (.cycleEnd (endFrame1 false)) ∧ e.bytesToFinish = []) ∧
      w.engine.phase = .between ∧ w.link.stop ≠ .immediate ∧ w.encoder.waiting ≠ none ∧
      w.nextEnding = some (.cycleEnd (endFrame1 true)) ∧ w.bytesToFinish ≠ [] := by decide +kernel

theorem witness_StopPointsEndTheCycleEarly :
    let s := running .carry (some (.record frame1)) store
    (s.rstn = true ∧ s.link.state = .running ∧ s.link.stop ≠ .immediate ∧ s.engine.phase ≠ .between ∧ 0xFF#8 ≠ 2#8 ∧
      0xFF#8 ≠ 3#8) ∧
      (let u := running .walk none store
       u.link.state = .running ∧ u.engine.phase ≠ .between ∧ u.engine.onAir = none ∧ u.rstn = true ∧
         u.link.stop ≠ .immediate ∧ u.encoder.waiting = none ∧ (stopping .frame u).link.stop = .frame) := by decide

/-- The bytes to finish: both bytes of an escape pair, one byte, none at a frame's end, a waiting frame's, and a fill byte. -/
theorem witness_StopPointsEndTheCycleEarly_bytes :
    let s := running .walk (some (.withdrawal (wframe 0xE7E7#16))) store
    let p := { s with encoder := { Encoder.idle with place := 2, pairFirst := true } }
    let e := { s with encoder := { Encoder.idle with place := 8 } }
    (p.engine.onAir = some (.withdrawal (wframe 0xE7E7#16)) ∧ p.encoder.pairFirst = true) ∧
      (s.encoder.pairFirst = false ∧ s.link.state.keyed = true ∧ s.bytesToFinish = [0xE7#8]) ∧
      (e.encoder.pairFirst = false ∧ e.bytesToFinish = []) ∧
      ((abortBehind [0xAA#8]).engine.onAir = none ∧
        (abortBehind [0xAA#8]).encoder.waiting = some { lead := [0xAA#8], frame := .abort }) ∧
      (store.engine.onAir = none ∧ store.encoder.waiting = none) ∧
      (running .walk none store).link.state = .running ∧ (running .walk none store).engine.phase ≠ .between ∧
      (running .walk none store).encoder.gap = 0 := by decide +kernel

theorem witness_TimersAndClrMoveTheLink :
    let k := { linkIn .keying store with link := { (linkIn .keying store).link with keyUp := some 0 } }
    (k.link.keyUp = some 0 ∧ k.link.clr = true) ∧
      { k with link := { k.link with clr := false } }.link.clr = false ∧ (linkIn .clearWait store).link.state = .clearWait ∧
      store.link.state ≠ .clearWait ∧
      { store with link := { store.link with clearWait := some 2550 } }.link.clearWait = some 2550 ∧
      { store with link := { store.link with pacing := .running 65535 } }.link.pacing = .running 65535 ∧
      store.link.pacing = .stopped ∧ store.link.cyc = false ∧
      -- CYC high, on a Cycle Start frame's marker and on one that STOP IMMEDIATE has finished before the Abort
      (cycleStarted.link.cyc = true ∧ cycleStarted.link.state = .running ∧ cycleStarted.encoder.place = 0 ∧
        cycleStarted.encoder.pairFirst = false ∧
        cycleStarted.engine.onAir = some (.cycleStart { startFrame1 with cycle := 7#16, liveCount := 0 })) ∧
      (let s := after (.stop [0x01#8]) cycleStarted
       s.link.cyc = true ∧ s.link.state = .running ∧ s.engine.onAir = none ∧
        s.encoder.waiting = some { lead := [0xE7#8], frame := .abort }) ∧
      -- both sides of a byte boundary: at 9,600 bit/s 5 ms are 6 byte-times, 65534 ms end inside a byte
      store.params.rate = 3 ∧ 65535 * (1200 * 2 ^ store.params.rate) % 8000 = 0 ∧
      65534 * (1200 * 2 ^ store.params.rate) % 8000 ≠ 0 := by decide

theorem witness_LossOfClrCutsTheLine :
    store.link.state ≠ .running ∧ (running .walk (some (.record frame1)) store).link.state = .running ∧
      (running .walk (some (.record frame1)) store).engine.phase ≠ .between ∧
      (running .between (some (.cycleEnd (endFrame1 false))) store).engine.phase = .between ∧
      (running .between (some (.cycleEnd (endFrame1 false))) store).engine.onAir = some (.cycleEnd (endFrame1 false)) ∧
      (running .between none store).engine.onAir = none := by decide

/-- A first cycle and a paced one; a confirmation at age 9, at age 15 and none; the cycle number wraps. -/
theorem witness_CycleStartOpensTheCycle :
    let b := running .between none store
    let f := { b with link := { b.link with firstPending := true }, engine := { b.engine with cycle := 0xFFFF#16 } }
    (f.engine.phase = .between ∧ f.link.state = .running ∧ f.engine.onAir = none ∧ f.link.stop = .none ∧
      f.link.firstPending = true ∧ f.cycleAllowed = true) ∧
      ({ b with link := { b.link with pacing := .expired } }.cycleAllowed = true ∧
        { b with link := { b.link with pacing := .expired } }.link.pacing = .expired) ∧
      (f.dir[0]? = some (entry 0x0001#16 (.live stored40)) ∧ stored40.confirm = some { age := 9, overdueRaised := false }) ∧
      (f.dir[1]? = some (entry 0x1000#16 (.live (feed40 0 true))) ∧
        (feed40 0 true).confirm = some { age := 15, overdueRaised := true }) ∧
      f.dir[3]? = some (entry 0x2000#16 (.staged 0)) := by decide

theorem witness_DueOnceInEveryRound :
    3 ≤ 3 ∧ isDue 3 0xFFFE#16 (0xFFFE#16) = true ∧ isDue 3 0xFFFE#16 (0xFFFF#16) = false ∧ isDue 0 0x0001#16 0#16 = true := by
  decide

/-- No queued key among a STAGED entry's and an absent one's has a frame to send. -/
theorem store_drops : ∀ k ∈ [0x2000#16, 0x0002#16], ∀ x ∈ store.dir, x.key = k → x.body.onCarousel = false ∨ x.sent = true := by
  have h : ∀ x ∈ store.dir, x.key ∈ [0x2000#16, 0x0002#16] → x.body.onCarousel = false ∨ x.sent = true := by decide
  exact fun k hk x hx e => h x hx (e ▸ hk)

/-- In CARRY a queue whose first key is dropped and whose second is served, and one whose keys are all dropped (store_drops); in WALK
candidates and none. -/
theorem witness_ChoiceFindsItsCandidate :
    let s := fun q => { running .carry none store with engine := { (running .carry none store).engine with queue := q } }
    (store.directoryOk ∧ (s [0x2000#16, 0x0001#16]).engine.phase = .carry ∧
      (s [0x2000#16, 0x0001#16]).engine.queue = [0x2000#16] ++ 0x0001#16 :: [] ∧
      entry 0x0001#16 (.live stored40) ∈ store.dir ∧ (Body.live stored40).onCarousel = true) ∧
      (running .walk none store).walkCandidates.map Entry.key = [0x1000#16, 0x1FFF#16, 0x3000#16] ∧
      (running .walk none idle).walkCandidates = [] ∧ (running .walk none store).engine.phase = .walk := by decide

/-- A FEED candidate with a fresh back chain, one that is not fresh, a STORED one and a Withdrawal, each passing the budget check; the first
frame of a cycle passes whatever the budget. -/
theorem witness_FrameChoiceStartsTheFrame :
    let s := fun (d : Directory) => running .walk none { store with dir := d }
    ((s store.dir).directoryOk ∧ (s store.dir).engine.phase ≠ .between ∧ (s store.dir).link.state = .running ∧
      (s store.dir).engine.onAir = none ∧ (s store.dir).link.stop ≠ .frame ∧
      (s store.dir).settleQueue.candidate = some (.walk, entry 0x1000#16 (.live (feed40 0 true))) ∧
      (s store.dir).settleQueue.engine.firstSent = false ∧ (s store.dir).settleQueue.engine.budget = 0 ∧
      (s store.dir).settleQueue.engine.fits (Body.live (feed40 0 true)).cost = true) ∧
      (s [entry 0x1000#16 (.live (feed40 5 false))]).settleQueue.candidate =
        some (.walk, entry 0x1000#16 (.live (feed40 5 false))) ∧
      (s [entry 0x0002#16 (.live stored40)]).settleQueue.candidate = some (.walk, entry 0x0002#16 (.live stored40)) ∧
      (s [entry 0x3000#16 (.withdrawing last8 2 none)]).settleQueue.candidate =
        some (.walk, entry 0x3000#16 (.withdrawing last8 2 none)) ∧
      (let c := { s store.dir with engine := { (s store.dir).engine with
        phase := .carry, queue := [0x0001#16], firstSent := true, budget := 50 } }
       c.settleQueue.candidate = some (.carry, entry 0x0001#16 (.live stored40)) ∧ 10 + stored40.length ≤ c.engine.budget) := by
  decide

theorem witness_FrameChoiceClosesTheCycle :
    ((running .walk none idle).engine.phase ≠ .between ∧ (running .walk none idle).link.state = .running ∧
      (running .walk none idle).engine.onAir = none ∧ (running .walk none idle).link.stop ≠ .frame ∧
      (running .walk none idle).settleQueue.candidate = none ∧ (running .carry none idle).settleQueue.candidate = none) ∧
      (let c := { running .carry none store with engine := { (running .carry none store).engine with
        queue := [0x2000#16, 0x0001#16], firstSent := true, budget := 49 } }
       c.settleQueue.candidate = some (.carry, entry 0x0001#16 (.live stored40)) ∧ c.engine.firstSent = true ∧
         c.engine.budget < (Body.live stored40).cost) := by decide

theorem witness_NoFrameForASentKey :
    (running .walk none store).engine.onAir = none ∧
      (after .frameChoice (running .walk none store)).engine.onAir.bind AirFrame.key = some 0x1000#16 ∧
      (after .frameChoice (running .walk none store)).engine.phase = .walk := by decide

/-- The frame's version agrees with the entry's, and it does not. -/
theorem witness_RecordFrameEndCompletesTheFrame :
    let s := running .carry (some (.record frame1)) store
    (s.engine.onAir = some (.record frame1) ∧ s.link.stop ≠ .frame ∧
      s.dir.entryOf frame1.key = some (entry 0x0001#16 (.live stored40)) ∧
      stored40.confirm = some { age := 9, overdueRaised := false } ∧ stored40.version = frame1.version) ∧
      (running .carry (some (.record { frame1 with version := 0xFE#8 })) store).engine.onAir =
        some (.record { frame1 with version := 0xFE#8 }) ∧ stored40.version ≠ 0xFE#8 := by decide

/-- A count of 2, a count of 1 held by a slot, a count of 1 that ends with the option on and off, and a revived entry. -/
theorem witness_WithdrawalFrameEndLowersTheCount :
    let s := fun (key : Key) (body : Body) (on : Bool) => { running .walk (some (.withdrawal (wframe key))) store with
      dir := [entry key body], params := { store.params with spentNotice := on } }
    ((s 0x3000#16 (.withdrawing last8 2 none) true).engine.onAir = some (.withdrawal (wframe 0x3000#16)) ∧
      (s 0x3000#16 (.withdrawing last8 2 none) true).link.stop ≠ .frame ∧
      (s 0x3000#16 (.withdrawing last8 2 none) true).dir.entryOf 0x3000#16 =
        some (entry 0x3000#16 (.withdrawing last8 2 none))) ∧
      (s 0x1FFF#16 (.withdrawing last8 1 (some 1)) true).dir.entryOf 0x1FFF#16 =
        some (entry 0x1FFF#16 (.withdrawing last8 1 (some 1))) ∧
      ((s 0x3000#16 (.withdrawing last8 1 none) true).params.spentNotice = true ∧
        (s 0x3000#16 (.withdrawing last8 1 none) false).params.spentNotice = false ∧
        (s 0x3000#16 (.withdrawing last8 1 none) false).dir.entryOf 0x3000#16 =
          some (entry 0x3000#16 (.withdrawing last8 1 none))) ∧
      (s 0x3000#16 (.live stored40) true).dir.entryOf 0x3000#16 = some (entry 0x3000#16 (.live stored40)) := by decide

theorem witness_FramePointIsReachedAtTheFrameEnd :
    let s := fun f => stopping .frame (running .carry (some f) store)
    ((s (.cycleStart startFrame1)).engine.onAir = some (.cycleStart startFrame1) ∧
      (s (.cycleStart startFrame1)).link.stop = .frame) ∧
      (s (.record frame1)).engine.onAir = some (.record frame1) ∧
      (s (.withdrawal (wframe 0x3000#16))).engine.onAir = some (.withdrawal (wframe 0x3000#16)) := by decide

theorem witness_KeylessFrameEndsDecideTheLink :
    let s := fun f => running .between (some f) store
    let bare := fun n => { s (.cycleEnd (endFrame1 false)) with engine := { (s (.cycleEnd (endFrame1 false))).engine with bare := n } }
    ((running .carry (some (.cycleStart startFrame1)) store).engine.onAir = some (.cycleStart startFrame1) ∧
      (running .carry (some (.cycleStart startFrame1)) store).link.stop ≠ .frame) ∧
      (s .abort).engine.onAir = some .abort ∧
      (s (.cycleEnd (endFrame1 true))).engine.onAir = some (.cycleEnd (endFrame1 true)) ∧
      (stopping .cycle (s (.cycleEnd (endFrame1 false)))).link.stop ≠ .none ∧
      ((bare 4).link.stop = .none ∧ (bare 4).params.bareLimit ≠ 0 ∧ (bare 4).engine.bare = (bare 4).params.bareLimit) ∧
      (bare 3).engine.bare ≠ (bare 3).params.bareLimit ∧ (abortBehind [0xAA#8]).nextEnding = some .abort ∧
      (s .abort).nextEnding = some .abort ∧ (bare 3).nextEnding = some (.cycleEnd (endFrame1 false)) := by decide

/-! ### The invariants, in a state with a Record frame on air -/

/-- A whole device, all 2,048 blocks in place, with the Record frame of its one record on air in WALK: the free list as given. -/
def airingOver (free : Chain) : State :=
  { running .walk (some (.record { frame1 with source := .walk })) State.reset with
    pool := { free := free, hold := none, mem := [(0, 1#8), (39, 0xE7#8)] }
    dir := [entry 0x0001#16 (.live stored40)]
    port := { State.reset.port with task := none } }

def airing : State := airingOver (List.range' 2 2046)

theorem airing_directoryOk : airing.directoryOk := (by decide : (airingOver []).directoryOk)

theorem airingOver_blocks (free : Chain) : (airingOver free).allBlocks = free ++ [0, 1] := by
  show free ++ [] ++ ([0, 1] ++ []) ++ [] = _
  simp

theorem airing_blocksOk : airing.blocksOk := by
  have r : List.range Config.poolBlocks = [0, 1] ++ List.range' 2 2046 := by
    rw [List.range_eq_range']; exact (List.range'_append_1 (s := 0) (m := 2) (n := 2046)).symm
  unfold State.blocksOk airing
  rw [airingOver_blocks, r]
  exact List.perm_append_comm

theorem airing_sessionsOk : airing.sessionsOk := by
  intro n x h
  fin_cases n <;> exact absurd (h : none = some x) nofun

theorem airing_bindingOk : airing.bindingOk := by
  refine ⟨fun n x h => ?_, fun e he n h => ?_⟩
  · fin_cases n <;> exact absurd (h : none = some x) nofun
  · obtain rfl := List.mem_singleton.mp he
    exact absurd (h : none = some n) nofun

theorem airing_entriesOk : airing.paramsOk ∧ airing.entriesOk := by
  refine ⟨(by decide : (airingOver []).paramsOk), fun e he => ?_⟩
  obtain rfl := List.mem_singleton.mp he
  show stored40.ok
  decide

theorem airing_holdOk : airing.HoldOk :=
  ⟨nofun, fun _ f hf _ => by
    obtain rfl := AirFrame.record.inj (Option.some.inj hf)
    exact ⟨entry 0x0001#16 (.live stored40), List.mem_singleton.mpr rfl, rfl, rfl⟩⟩

theorem airingOver_linkOk (free : Chain) : (airingOver free).LinkOk :=
  ⟨⟨fun h => absurd rfl h, nofun⟩, fun h => absurd rfl h, ⟨nofun, nofun⟩, ⟨nofun, nofun⟩, fun h => absurd rfl h, nofun, nofun,
    fun _ => rfl, fun _ => rfl, fun _ => rfl, nofun⟩

theorem airing_engineOk : airing.EngineOk :=
  ⟨fun f hf => by obtain rfl := Option.some.inj hf; rfl, nofun, fun _ => rfl, List.nodup_nil, nofun⟩

theorem airing_cycOk : airing.CycOk := ⟨nofun, nofun⟩

/-- CYC's promise in a state where CYC is high. -/
theorem witness_StepKeepsTheLink_cyc : cycleStarted.link.cyc = true ∧ cycleStarted.CycOk :=
  ⟨rfl, fun _ => .inl ⟨⟨_, rfl⟩, rfl, rfl⟩, fun _ _ _ => ⟨rfl, rfl⟩⟩

/-- A CLEAR in progress meets its promise, and the step that completes it too. -/
theorem witness_StepKeepsTheLink_clear :
    let s := { idle with port := { idle.port with task := some .clearing }, pending := [.clearCompletion] }
    (s.port.task = some .clearing ∧ s.clearOk) ∧ ∃ t, step s = .next t ∧ t.clearOk :=
  ⟨⟨rfl, fun _ => rfl⟩, _, rfl, nofun⟩

theorem airing_queueOk : airing.QueueOk :=
  ⟨nofun, fun k hk => by obtain rfl := Option.some.inj hk; exact ⟨rfl, nofun⟩⟩

theorem airing_memory_wf : airing.pool.mem.wf := (by decide : (airingOver []).pool.mem.wf)

/-- That state meets every invariant's hypotheses. -/
theorem witness_StepKeepsEveryPromise :
    airing.directoryOk ∧ airing.blocksOk ∧ airing.sessionsOk ∧ airing.bindingOk ∧ airing.paramsOk ∧ airing.entriesOk ∧
      airing.HoldOk ∧ airing.LinkOk ∧ airing.clearOk ∧ airing.CycOk ∧ airing.EngineOk ∧ airing.QueueOk ∧ airing.pool.mem.wf :=
  ⟨airing_directoryOk, airing_blocksOk, airing_sessionsOk, airing_bindingOk, airing_entriesOk.1, airing_entriesOk.2,
    airing_holdOk, airingOver_linkOk _, nofun, airing_cycOk, airing_engineOk, airing_queueOk, airing_memory_wf⟩

/-- A step from it ends the frame, whatever the free list. -/
theorem witness_StepKeepsEveryPromise_next (free : Chain) :
    ∃ t, step { airingOver free with pending := [.recordFrameEnd] } = .next t ∧ t.engine.frames = 1#16 := ⟨_, rfl, rfl⟩

theorem witness_LinkStateChangesAsTheTable :
    (airingOver []).LinkOk ∧ Instr.lossOfClr ≠ .powerOnReset ∧ Instr.lossOfClr ≠ .powerOnInitialisation ∧
      (after .lossOfClr (airingOver [])).link.state = .fault ∧
      (after (.unknown 0x03#8 [0x01#8]) (linkIn .keying store)).link.state = .halted :=
  ⟨airingOver_linkOk _, nofun, nofun, by decide, by decide⟩

theorem witness_PlayoutAndLinkLeaveTheSessions :
    Instr.recordFrameEnd ≠ .powerOnReset ∧ Instr.recordFrameEnd ≠ .powerOnInitialisation ∧
      Instr.recordFrameEnd ≠ .commandCompletion ∧ Instr.recordFrameEnd ≠ .clearCompletion := by decide

theorem witness_GenerationAndCycleNumberMove :
    (after .retireGroupVisit { store with port := { store.port with task := some (.groupWalk 0 none 0 0) } }).engine.generation =
      1#16 ∧ (after .cycleStart { running .between none store with
        link := { (running .between none store).link with firstPending := true } }).engine.cycle = 7#16 := by decide

/-- The last payload byte of a Record frame, in the second block of its chain; the last bit of a byte. -/
theorem witness_FrameBytesOnTheLine :
    39 < frame1.length ∧ frame1.chain[39 / 32]? = some 1 ∧ AirFrame.record frame1 ≠ .abort ∧ 7 < 8 := by decide

/-- A frame at its start on an empty queue, and its last line byte; an Abort that waits behind an escape pair, and its type byte. -/
theorem witness_LineCarriesTheFrame :
    let s := { running .walk (some (.withdrawal (wframe 0xE7E7#16))) idle with encoder := Encoder.idle }
    s.pending = [] ∧ s.link.state = .running ∧ s.engine.onAir = some (.withdrawal (wframe 0xE7E7#16)) ∧
      s.encoder = { waiting := none, place := 0, pairFirst := false, crc := 0xFFFF#16, gap := 0 } ∧
      ((AirFrame.withdrawal (wframe 0xE7E7#16)).lineBytes s.pool.mem)[9]?.isSome = true ∧
      (abortBehind [0xE7#8, 0xE7#8]).pending = [] ∧ (abortBehind [0xE7#8, 0xE7#8]).link.state = .running ∧
      (abortBehind [0xE7#8, 0xE7#8]).engine.onAir = none ∧ [0xE7#8, 0xE7#8] ≠ [] ∧
      (abortBehind [0xE7#8, 0xE7#8]).encoder.waiting = some { lead := [0xE7#8, 0xE7#8], frame := .abort } ∧
      ([0xE7#8, 0xE7#8] ++ AirFrame.abort.lineBytes [])[3]? = some 0x3F#8 := by decide +kernel

end Sys2Proof.Tests
end

/-! Change sessions: the checks of WRITE and COMMIT in their order, and the version a COMMIT gives (R40, R42, R44). -/

namespace Sys2Proof.Machine

/-! ## Acceptance and completion of a command -/

/-- A row whose meaning is the acceptance of a command is accepted wherever the port accepts one (R147). -/
theorem accepted_of_exec_accept {i : Instr} {args : List Byte} {c : Command}
    (h : ∀ s, exec i s = .next (s.accept args c)) : Accepted i args.length (.command c) := by
  rintro s ⟨hrstn, hbusy⟩
  rw [h, State.accept_idle s args c hrstn hbusy]
  rfl

/-- COMMAND_COMPLETION completes the command that runs (R147). -/
theorem exec_commandCompletion_of_runs {v : State} {c : Command} (h : v.Runs c) :
    exec .commandCompletion v = .next (v.completeCommand c) :=
  execCommandCompletion_command v c h

/-- A refused command answers its code with no response bytes, and nothing outside the port changes (R147). -/
theorem State.Runs.answers_of_refused {v : State} {c : Command} {code : ResultCode} (h : v.Runs c)
    (hc : runCommand c v = (v, Result.refuse code)) : v.Answers code [] := by
  rw [State.Answers, exec_commandCompletion_of_runs h, State.completeCommand_refused v c _ hc]
  rfl

/-! ## Slot numbers (R40, R42) -/

@[simp] theorem slotNoOf_val (n : SlotNo) : slotNoOf n.val = some n := by
  simp [slotNoOf]

theorem slotNoOf_of_three_lt {slot : Nat} (h : 3 < slot) : slotNoOf slot = none :=
  dif_neg (by omega)

/-! ## WRITE's checks (R40) -/

/-- A WRITE with fewer data bytes than its count is SHORT (R149). -/
theorem parseWrite_short {n f1 f0 c : Byte} {data : List Byte} (h : data.length < c.toNat) :
    parseWrite (n :: f1 :: f0 :: c :: data) = .short :=
  if_pos h

theorem runWrite_badSlot {slot : Nat} (offset : Nat) (data : List Byte) (s : State) (h : 3 < slot) :
    runWrite slot offset data s = (s, Result.refuse .badSlot) := by
  simp [runWrite, slotNoOf_of_three_lt h]

section WriteChecks

variable {s : State} {n : SlotNo} {offset : Nat} {data : List Byte} {x : Session}

/-- A count of 1 to 64 passes the length check. -/
theorem length_in_range (hpos : 1 ≤ data.length) (hmax : data.length ≤ 64) :
    ¬(data.length = 0 ∨ data.length > 64) := by omega

theorem runWrite_badLength (h : data.length = 0 ∨ 64 < data.length) :
    runWrite n.val offset data s = (s, Result.refuse .badLength) := by
  simp only [runWrite, slotNoOf_val]
  exact if_pos h

theorem runWrite_free (hpos : 1 ≤ data.length) (hmax : data.length ≤ 64) (hn : s.slots.at n = none) :
    runWrite n.val offset data s = (s, Result.refuse .state) := by
  simp only [runWrite, slotNoOf_val, if_neg (length_in_range hpos hmax), hn]

theorem runWrite_sequence (hpos : 1 ≤ data.length) (hmax : data.length ≤ 64) (hn : s.slots.at n = some x)
    (hoff : offset ≠ x.fill) : runWrite n.val offset data s = (s, Result.refuse .sequence) := by
  simp only [runWrite, slotNoOf_val, if_neg (length_in_range hpos hmax), hn, if_pos hoff]

theorem runWrite_overrun (hpos : 1 ≤ data.length) (hmax : data.length ≤ 64) (hn : s.slots.at n = some x)
    (hoff : offset = x.fill) (hover : x.length < offset + data.length) :
    runWrite n.val offset data s = (s, Result.refuse .overrun) := by
  simp only [runWrite, slotNoOf_val, if_neg (length_in_range hpos hmax), hn, if_neg (not_not_intro hoff), if_pos hover]

end WriteChecks

/-! ## COMMIT's checks (R42) -/

/-- A slot is FULL exactly when its fill is its length (R32). -/
theorem Session.full_iff (x : Session) : x.full = true ↔ x.fill = x.length := by
  simp [Session.full]

theorem runCommit_badSlot {slot : Nat} (confirm : Bool) (s : State) (h : 3 < slot) :
    runCommit slot confirm s = (s, Result.refuse .badSlot) := by
  simp [runCommit, slotNoOf_of_three_lt h]

section CommitChecks

variable {s : State} {n : SlotNo} {confirm : Bool} {x : Session} {e : Entry}

theorem runCommit_free (hn : s.slots.at n = none) : runCommit n.val confirm s = (s, Result.refuse .state) := by
  simp only [runCommit, slotNoOf_val, hn]

theorem runCommit_incomplete (hn : s.slots.at n = some x) (hfill : x.fill ≠ x.length) :
    runCommit n.val confirm s = (s, Result.refuse .incomplete) := by
  have hfull : ¬x.full = true := mt x.full_iff.mp hfill
  simp only [runCommit, slotNoOf_val, hn, if_neg hfull]

/-- A COMMIT of a FULL slot installs the session's version and answers its key and version (R43). -/
theorem runCommit_full (hn : s.slots.at n = some x) (hfill : x.fill = x.length) (he : s.dir.entryOf x.key = some e) :
    runCommit n.val confirm s =
      ((s.install n x confirm e).wake, Result.ok (bytes16 x.key ++ [e.body.nextVersion])) := by
  simp only [runCommit, slotNoOf_val, hn, if_pos (x.full_iff.mpr hfill), he]

end CommitChecks

/-- The key of a non-FREE slot has an entry (R33). -/
theorem State.bindingOk.exists_entryOf {s : State} (h : s.bindingOk) {n : SlotNo} {x : Session}
    (hn : s.slots.at n = some x) : ∃ e, s.dir.entryOf x.key = some e := by
  obtain ⟨e, hmem, hkey, -⟩ := h.1 n x hn
  exact Option.ne_none_iff_exists'.mp fun hnone => Directory.entryOf_eq_none.mp hnone e hmem hkey

/-! ## The version a COMMIT gives (R44) -/

/-- After a COMMIT the session's key finds the entry with the installed version (R13, R43). -/
theorem State.install_entryOf {s : State} {n : SlotNo} {x : Session} {confirm : Bool} {e : Entry}
    (he : s.dir.entryOf x.key = some e) :
    (s.install n x confirm e).dir.entryOf x.key = some (e.commit x confirm) := by
  have hsame := Directory.entryOf_update_same s.dir x.key (Entry.commit x confirm) fun _ => rfl
  rw [he] at hsame
  exact hsame

/-- One more than a version, modulo 256, is another version (R6, R44). -/
theorem version_add_one (b : Byte) : (b + 1#8).toNat = (b.toNat + 1) % 256 ∧ b + 1#8 ≠ b := by
  constructor
  · simp [BitVec.toNat_add]
  · bv_omega

end Sys2Proof.Machine

namespace Sys2Proof.Proofs

open Sys2Proof.Machine

/-- Settles O15: each check of WRITE in its order, then a FULL slot as the case in which the offset stands at the length. -/
theorem writeChecksInOrder : Obligations.WriteChecksInOrder := by
  refine ⟨fun n f1 f0 c data hshort => ?_, fun v hv => hv.answers_of_refused rfl,
    fun v slot offset data hv => ⟨fun hslot => hv.answers_of_refused (runWrite_badSlot offset data v hslot), ?_⟩⟩
  · have haccept : ∀ s, exec (.write (n :: f1 :: f0 :: c :: data)) s =
        .next (s.accept (n :: f1 :: f0 :: c :: data) .short) := fun s =>
      congrArg (fun cmd => Host.Outcome.next (s.accept _ cmd)) (parseWrite_short hshort)
    have hlength : (n :: f1 :: f0 :: c :: data).length = 4 + data.length := by
      simp only [List.length_cons]
      omega
    exact hlength ▸ accepted_of_exec_accept haccept
  · rintro n rfl
    refine ⟨fun hlen => hv.answers_of_refused (runWrite_badLength hlen), fun hpos hmax =>
      ⟨fun hn => hv.answers_of_refused (runWrite_free hpos hmax hn), fun x hn => ?_⟩⟩
    have hsequence (hoff : offset ≠ x.fill) : v.Answers .sequence [] :=
      hv.answers_of_refused (runWrite_sequence hpos hmax hn hoff)
    have hoverrun (hoff : offset = x.fill) (hover : x.length < offset + data.length) : v.Answers .overrun [] :=
      hv.answers_of_refused (runWrite_overrun hpos hmax hn hoff hover)
    exact ⟨hsequence, hoverrun, fun hfull hoff => hsequence (hfull ▸ hoff),
      fun hfull hoff => hoverrun (hoff.trans hfull.symm) (by omega)⟩

/-- Settles O17: the entry found afterwards carries `Body.nextVersion`, read off for each state of the entry before. -/
theorem commitVersion : Obligations.CommitVersion := by
  intro v n confirm x e hv hn hfill he
  have hentry : (v.completeCommand (.commit n.val confirm)).dir.entryOf x.key = some (e.commit x confirm) := by
    simp only [State.completeCommand, runCommand, runCommit_full hn hfill he, State.finish_dir, State.wake_dir,
      State.install_entryOf he]
  refine ⟨_, _, x.installed e.body.nextVersion confirm, exec_commandCompletion_of_runs hv, hentry, rfl, ?_, ?_, ?_⟩
  · intro m hbody
    simp only [Session.installed, hbody, Body.nextVersion]
  · intro u hbody
    simpa only [Session.installed, hbody, Body.nextVersion] using version_add_one u.version
  · intro l r o hbody
    simpa only [Session.installed, hbody, Body.nextVersion] using version_add_one l.version

/-- Settles O19: each check of COMMIT in its order; the binding of slots and entries gives a FULL slot the entry that takes its
version. -/
theorem commitChecksInOrder : Obligations.CommitChecksInOrder := by
  intro v slot confirm hv
  refine ⟨fun hslot => hv.answers_of_refused (runCommit_badSlot confirm v hslot), ?_⟩
  rintro n rfl
  refine ⟨fun hn => hv.answers_of_refused (runCommit_free hn), fun x hn =>
    ⟨fun hfill => hv.answers_of_refused (runCommit_incomplete hn hfill), fun hfill hbinding => ?_⟩⟩
  obtain ⟨e, he⟩ := hbinding.exists_entryOf hn
  refine ⟨_, bytes16 x.key ++ [e.body.nextVersion], exec_commandCompletion_of_runs hv, ?_⟩
  simp only [State.completeCommand, runCommand, runCommit_full hn hfill he, State.finish_result, Result.ok]

end Sys2Proof.Proofs

/-! Retirement: the checks of RETIRE in their order (R54). -/

namespace Sys2Proof.Machine

/-- The two key values held out of use (R1). -/
theorem badKey_iff (key : Key) : badKey key = true ↔ key = 0x0000#16 ∨ key = 0xFFFF#16 := by
  simp [badKey]

section RetireChecks

variable {s : State} {key : Key} {e : Entry}

theorem runRetire_badKey (hkey : badKey key = true) : runRetire key s = (s, Result.refuse .badKey) :=
  if_pos hkey

theorem runRetire_noKey (hkey : ¬badKey key = true) (he : s.dir.entryOf key = none) :
    runRetire key s = (s, Result.refuse .noKey) := by
  simp only [runRetire, if_neg hkey, he]

theorem runRetire_state (hkey : ¬badKey key = true) (he : s.dir.entryOf key = some e) (hbody : ∀ w, e.body ≠ .live w) :
    runRetire key s = (s, Result.refuse .state) := by
  rw [runRetire, if_neg hkey, he]
  dsimp only
  cases hcase : e.body with
  | live w => exact absurd hcase (hbody w)
  | staged slot => rfl
  | withdrawing last remaining slot => rfl
  | spent last => rfl

/-- RETIRE of a LIVE entry retires it and answers key, version and count, whatever the slots and the link are (R54, R55). -/
theorem runRetire_live {w : Live} (hkey : ¬badKey key = true) (he : s.dir.entryOf key = some e) (hbody : e.body = .live w) :
    runRetire key s =
      (s.retireLive key w, Result.ok (bytes16 key ++ [w.version, byteOf s.params.withdrawals])) := by
  simp only [runRetire, if_neg hkey, he, hbody]

end RetireChecks

end Sys2Proof.Machine

namespace Sys2Proof.Proofs

open Sys2Proof.Machine

/-- Settles O22: each check of RETIRE in its order; past them the entry's body alone decides, with no look at slots or link. -/
theorem retireChecksInOrder : Obligations.RetireChecksInOrder := by
  intro v key hv
  refine ⟨fun hbad => hv.answers_of_refused (runRetire_badKey ((badKey_iff key).mpr hbad)), fun hzero hones => ?_⟩
  have hkey : ¬badKey key = true := mt (badKey_iff key).mp (not_or.mpr ⟨hzero, hones⟩)
  refine ⟨fun hnone => hv.answers_of_refused (runRetire_noKey hkey hnone), fun e he =>
    ⟨fun hbody => hv.answers_of_refused (runRetire_state hkey he hbody), fun w hbody => ?_⟩⟩
  refine ⟨_, bytes16 key ++ [w.version, byteOf v.params.withdrawals], exec_commandCompletion_of_runs hv, ?_⟩
  simp only [State.completeCommand, runCommand, runRetire_live hkey he hbody, State.finish_result, Result.ok]

end Sys2Proof.Proofs

/-! Feed records: the checks of FEED in their order (R96). -/

namespace Sys2Proof.Machine

/-- A FEED with fewer data bytes than its count is SHORT (R96, R149). -/
theorem parseFeed_short {k1 k0 f1 f0 c : Byte} {data : List Byte} (h : data.length < c.toNat) :
    parseFeed (k1 :: k0 :: f1 :: f0 :: c :: data) = .short :=
  if_pos h

section FeedChecks

variable {s : State} {key : Key} {offset : Nat} {data : List Byte} {e : Entry} {w : Live} {f : Feed}

theorem runFeed_badKey (offset : Nat) (data : List Byte) (s : State) (hkey : badKey key = true) :
    runFeed key offset data s = (s, Result.refuse .badKey) :=
  if_pos hkey

theorem runFeed_badLength (hkey : ¬badKey key = true) (hlen : data.length = 0 ∨ 64 < data.length) :
    runFeed key offset data s = (s, Result.refuse .badLength) := by
  rw [runFeed, if_neg hkey]
  exact if_pos hlen

theorem runFeed_noKey (hkey : ¬badKey key = true) (hpos : 1 ≤ data.length) (hmax : data.length ≤ 64)
    (he : s.dir.entryOf key = none) : runFeed key offset data s = (s, Result.refuse .noKey) := by
  simp only [runFeed, if_neg hkey, if_neg (length_in_range hpos hmax), he]

theorem runFeed_state (hkey : ¬badKey key = true) (hpos : 1 ≤ data.length) (hmax : data.length ≤ 64)
    (he : s.dir.entryOf key = some e) (hbody : ∀ w, e.body ≠ .live w) :
    runFeed key offset data s = (s, Result.refuse .state) := by
  rw [runFeed, if_neg hkey, if_neg (length_in_range hpos hmax), he]
  dsimp only
  cases hcase : e.body with
  | live w => exact absurd hcase (hbody w)
  | staged slot => rfl
  | withdrawing last remaining slot => rfl
  | spent last => rfl

theorem runFeed_kind (hkey : ¬badKey key = true) (hpos : 1 ≤ data.length) (hmax : data.length ≤ 64)
    (he : s.dir.entryOf key = some e) (hbody : e.body = .live w) (hstored : w.feed = none) :
    runFeed key offset data s = (s, Result.refuse .kind) := by
  simp only [runFeed, if_neg hkey, if_neg (length_in_range hpos hmax), he, hbody, hstored]

/-- A FEED to a FEED record has the offset and length checks left (R96); past them the piece is placed (R97). -/
theorem runFeed_feed (hkey : ¬badKey key = true) (hpos : 1 ≤ data.length) (hmax : data.length ≤ 64)
    (he : s.dir.entryOf key = some e) (hbody : e.body = .live w) (hfeed : w.feed = some f) :
    runFeed key offset data s =
      if offset ≠ f.fill then (s, Result.refuse .sequence)
      else if offset + data.length > w.length then (s, Result.refuse .overrun)
      else (s.feedPiece key f offset data, Result.ok (feedResponse w.length (offset + data.length))) := by
  simp only [runFeed, if_neg hkey, if_neg (length_in_range hpos hmax), he, hbody, hfeed]

end FeedChecks

end Sys2Proof.Machine

namespace Sys2Proof.Proofs

open Sys2Proof.Machine

/-- Settles O25: SHORT at acceptance, then each check of FEED in its order; every refusal hands back the state it was given. -/
theorem feedChecksInOrder : Obligations.FeedChecksInOrder := by
  refine ⟨fun k1 k0 f1 f0 c data hshort => ?_, fun v hv => hv.answers_of_refused rfl, fun v key offset data hv =>
    ⟨fun hbad => hv.answers_of_refused (runFeed_badKey offset data v ((badKey_iff key).mpr hbad)), fun hzero hones => ?_⟩⟩
  · have haccept : ∀ s, exec (.feed (k1 :: k0 :: f1 :: f0 :: c :: data)) s =
        .next (s.accept (k1 :: k0 :: f1 :: f0 :: c :: data) .short) := fun s =>
      congrArg (fun cmd => Host.Outcome.next (s.accept _ cmd)) (parseFeed_short hshort)
    have hlength : (k1 :: k0 :: f1 :: f0 :: c :: data).length = 5 + data.length := by
      simp only [List.length_cons]
      omega
    exact hlength ▸ accepted_of_exec_accept haccept
  · have hkey : ¬badKey key = true := mt (badKey_iff key).mp (not_or.mpr ⟨hzero, hones⟩)
    refine ⟨fun hlen => hv.answers_of_refused (runFeed_badLength hkey hlen), fun hpos hmax =>
      ⟨fun hnone => hv.answers_of_refused (runFeed_noKey hkey hpos hmax hnone), fun e he =>
      ⟨fun hbody => hv.answers_of_refused (runFeed_state hkey hpos hmax he hbody), fun w hbody =>
      ⟨fun hstored => hv.answers_of_refused (runFeed_kind hkey hpos hmax he hbody hstored), fun f hfeed => ?_⟩⟩⟩⟩
    have hrun := runFeed_feed (offset := offset) hkey hpos hmax he hbody hfeed
    exact ⟨fun hoff => hv.answers_of_refused (hrun.trans (if_pos hoff)), fun hoff hover =>
      hv.answers_of_refused (hrun.trans ((if_neg (not_not_intro hoff)).trans (if_pos hover)))⟩

end Sys2Proof.Proofs

/-! The command port: the result slot in both orders of a RESULT and a completion, and the result codes (R148, R158). -/

namespace Sys2Proof.Machine

/-! ## RESULT's act in each state of the port (R148) -/

@[simp] theorem State.endTransaction_busy (s : State) (n : Nat) : (s.endTransaction n).busy = s.busy := rfl

section ResultAct

variable {s : State} (args : List Byte)

/-- With RSTN high a RESULT ends its transaction and acts, BUSY or not (R147). -/
theorem exec_result_taken (hrstn : s.rstn = true) :
    exec (.result args) s = .next (s.endTransaction args.length).takeResult :=
  congrArg Host.Outcome.next (if_pos hrstn)

theorem exec_result_busy (hrstn : s.rstn = true) (hbusy : s.busy = true) :
    exec (.result args) s =
      .next { s with port := { s.transacted args.length with readOut := [0x01#8, 0x00#8] } } :=
  (exec_result_taken args hrstn).trans (congrArg Host.Outcome.next (if_pos hbusy))

theorem exec_result_idle (hrstn : s.rstn = true) (hidle : s.busy = false) {r : Result} (hr : s.port.result = some r) :
    exec (.result args) s =
      .next { s with port := { s.transacted args.length with
        readOut := r.code.byte :: BitVec.ofNat 8 r.bytes.length :: r.bytes, result := none } } := by
  rw [exec_result_taken args hrstn, State.takeResult, State.endTransaction_busy, hidle, State.endTransaction_result, hr]
  rfl

theorem exec_result_empty (hrstn : s.rstn = true) (hidle : s.busy = false) (hr : s.port.result = none) :
    exec (.result args) s =
      .next { s with port := { s.transacted args.length with readOut := [0x02#8, 0x00#8] } } := by
  rw [exec_result_taken args hrstn, State.takeResult, State.endTransaction_busy, hidle, State.endTransaction_result, hr]
  rfl

end ResultAct

/-! ## A command's act and the port (R147) -/

/-- What the acts of all commands have in common: the result looks at nothing of the port, and RSTN, which no command drives, stays. -/
def CommandAct (run : State → State × Result) : Prop :=
  ∀ (s : State) (p : Port), (run { s with port := p }).2 = (run s).2 ∧ (run s).1.rstn = s.rstn

/-- An act that only ever answers one refusal. -/
theorem commandAct_refuse (code : ResultCode) : CommandAct fun s => (s, Result.refuse code) :=
  fun _ _ => ⟨rfl, rfl⟩

theorem runOpen_commandAct (key : Key) (kind : Kind) (cls length : Nat) : CommandAct (runOpen key kind cls length) := by
  intro s p
  have hrefusal : openStateRefusal key kind length { s with port := p } = openStateRefusal key kind length s := rfl
  simp only [runOpen, hrefusal]
  repeat' split
  all_goals exact ⟨rfl, rfl⟩

theorem runWrite_commandAct (slot offset : Nat) (data : List Byte) : CommandAct (runWrite slot offset data) := by
  intro s p
  simp only [runWrite]
  repeat' split
  all_goals exact ⟨rfl, rfl⟩

/-- COMMIT alone of the slot commands reaches the link, by the wake. -/
theorem runCommit_commandAct (slot : Nat) (confirm : Bool) : CommandAct (runCommit slot confirm) := by
  intro s p
  simp only [runCommit]
  repeat' split
  all_goals simp

theorem runCancel_commandAct (slot : Nat) : CommandAct (runCancel slot) := by
  intro s p
  simp only [runCancel]
  repeat' split
  all_goals exact ⟨rfl, rfl⟩

theorem runRetire_commandAct (key : Key) : CommandAct (runRetire key) := by
  intro s p
  simp only [runRetire]
  repeat' split
  all_goals exact ⟨rfl, rfl⟩

theorem runFeed_commandAct (key : Key) (offset : Nat) (data : List Byte) : CommandAct (runFeed key offset data) := by
  intro s p
  simp only [runFeed]
  repeat' split
  all_goals exact ⟨rfl, rfl⟩

theorem runRead_commandAct (key : Key) (offset count : Nat) : CommandAct (runRead key offset count) := by
  intro s p
  simp only [runRead]
  repeat' split
  all_goals exact ⟨rfl, rfl⟩

theorem runQuery_commandAct (key : Key) : CommandAct (runQuery key) := by
  intro s p
  simp only [runQuery]
  repeat' split
  all_goals exact ⟨rfl, rfl⟩

theorem runNotice_commandAct : CommandAct runNotice := by
  intro s p
  have hnoticed : { s with port := p }.noticed = s.noticed := rfl
  simp only [runNotice, hnoticed]
  split
  all_goals exact ⟨rfl, rfl⟩

theorem runStart_commandAct : CommandAct runStart := by
  intro s p
  simp only [runStart]
  split
  all_goals simp

theorem runConfigure_commandAct (code : Byte) (value : Nat) : CommandAct (runConfigure code value) := by
  intro s p
  simp only [runConfigure]
  repeat' split
  all_goals exact ⟨rfl, rfl⟩

theorem runCommand_commandAct (c : Command) : CommandAct (runCommand c) := by
  cases c with
  | short => exact commandAct_refuse .short
  | unknown => exact commandAct_refuse .unknown
  | openSession key kind cls length => exact runOpen_commandAct key kind cls length
  | write slot offset data => exact runWrite_commandAct slot offset data
  | commit slot confirm => exact runCommit_commandAct slot confirm
  | cancel slot => exact runCancel_commandAct slot
  | retire key => exact runRetire_commandAct key
  | feed key offset data => exact runFeed_commandAct key offset data
  | read key offset count => exact runRead_commandAct key offset count
  | query key => exact runQuery_commandAct key
  | notice => exact runNotice_commandAct
  | start => exact runStart_commandAct
  | configure code value => exact runConfigure_commandAct code value

/-! ## Completions (R59, R147, R157) -/

/-- The row completes what holds the port BUSY, with this result; RSTN stays (R147). -/
def State.CompletesWith (s : State) (i : Instr) (r : Result) : Prop :=
  ∃ w : State, exec i s = .next (w.finish r) ∧ w.rstn = s.rstn

/-- The row completes with one and the same result whatever the port holds beside its task. -/
def State.CompletesAlike (s : State) (i : Instr) : Prop :=
  ∃ r, ∀ p : Port, p.task = s.port.task → { s with port := p }.CompletesWith i r

section Completions

variable {s : State}

theorem commandCompletion_completesAlike {c : Command} (htask : s.port.task = some (.command c)) :
    s.CompletesAlike .commandCompletion := by
  refine ⟨(runCommand c s).2, fun p hp => ?_⟩
  obtain ⟨hresult, -⟩ := runCommand_commandAct c s p
  obtain ⟨-, hrstn⟩ := runCommand_commandAct c { s with port := p } p
  refine ⟨(runCommand c { s with port := p }).1, ?_, hrstn⟩
  rw [exec_commandCompletion_of_runs (hp.trans htask), State.completeCommand, hresult]

theorem exec_retireGroupVisit_walk {group retired skipped : Nat} {last : Option Key}
    (htask : s.port.task = some (.groupWalk group last retired skipped)) :
    exec .retireGroupVisit s = .next (s.walkStep group last retired skipped) := by
  simp only [exec, execRetireGroupVisit, htask]

/-- A visit that finds no entry left is the walk's last step (R59). -/
theorem State.walkStep_last {group : Nat} {last : Option Key} (retired skipped : Nat)
    (hnone : s.dir.nextOfGroup group last = none) :
    s.walkStep group last retired skipped = s.finish (Result.ok (countBytes retired ++ countBytes skipped)) := by
  simp only [State.walkStep, hnone]

/-- A visit of an entry keeps the port BUSY with the walk (R59). -/
theorem State.walkStep_busy {group retired skipped : Nat} {last : Option Key} {e : Entry}
    (he : s.dir.nextOfGroup group last = some e) : (s.walkStep group last retired skipped).busy = true := by
  simp only [State.walkStep, he]
  split
  all_goals exact State.begin_busy _ _

theorem retireGroupVisit_completesAlike {group retired skipped : Nat} {last : Option Key}
    (htask : s.port.task = some (.groupWalk group last retired skipped)) (hnone : s.dir.nextOfGroup group last = none) :
    s.CompletesAlike .retireGroupVisit :=
  ⟨_, fun p hp => ⟨{ s with port := p }, (exec_retireGroupVisit_walk (hp.trans htask)).trans
    (congrArg Host.Outcome.next (State.walkStep_last retired skipped hnone)), rfl⟩⟩

theorem exec_clearCompletion_clearing (htask : s.port.task = some .clearing) :
    exec .clearCompletion s = .next (s.clearStore.finish (Result.ok [])) :=
  if_pos (beq_iff_eq.mpr htask)

theorem clearCompletion_completesAlike (htask : s.port.task = some .clearing) : s.CompletesAlike .clearCompletion :=
  ⟨_, fun p hp => ⟨{ s with port := p }.clearStore, exec_clearCompletion_clearing (hp.trans htask), rfl⟩⟩

/-! A completion row with nothing of its kind in progress changes nothing (log 3). -/

theorem exec_commandCompletion_other (htask : ¬∃ c, s.port.task = some (.command c)) :
    exec .commandCompletion s = .next s := by
  simp only [exec, execCommandCompletion]
  split
  · exact absurd ⟨_, ‹_›⟩ htask
  · rfl

theorem exec_retireGroupVisit_other
    (htask : ¬∃ group last retired skipped, s.port.task = some (.groupWalk group last retired skipped)) :
    exec .retireGroupVisit s = .next s := by
  simp only [exec, execRetireGroupVisit]
  split
  · exact absurd ⟨_, _, _, _, ‹_›⟩ htask
  · rfl

theorem exec_clearCompletion_other (htask : ¬s.port.task = some .clearing) : exec .clearCompletion s = .next s :=
  if_neg (mt beq_iff_eq.mp htask)

/-- A completion row after which a BUSY port is not BUSY has completed: otherwise it leaves the state, or the walk goes on. -/
theorem completesAlike_of_idle {i : Instr} {u : State} (hi : i ∈ [Instr.commandCompletion, .retireGroupVisit, .clearCompletion])
    (hbusy : s.busy = true) (hexec : exec i s = .next u) (hidle : u.busy = false) : s.CompletesAlike i := by
  have not_busy {w : State} (hw : exec i s = .next w) : ¬w.busy = true := by
    obtain rfl : u = w := Host.Outcome.next.inj (hexec.symm.trans hw)
    simp [hidle]
  simp only [List.mem_cons, List.not_mem_nil, or_false] at hi
  obtain rfl | rfl | rfl := hi
  · by_cases htask : ∃ c, s.port.task = some (.command c)
    · obtain ⟨c, htask⟩ := htask
      exact commandCompletion_completesAlike htask
    · exact absurd hbusy (not_busy (exec_commandCompletion_other htask))
  · by_cases htask : ∃ group last retired skipped, s.port.task = some (.groupWalk group last retired skipped)
    · obtain ⟨group, last, retired, skipped, htask⟩ := htask
      cases hnext : s.dir.nextOfGroup group last with
      | none => exact retireGroupVisit_completesAlike htask hnext
      | some e => exact absurd (State.walkStep_busy hnext) (not_busy (exec_retireGroupVisit_walk htask))
    · exact absurd hbusy (not_busy (exec_retireGroupVisit_other htask))
  · by_cases htask : s.port.task = some .clearing
    · exact clearCompletion_completesAlike htask
    · exact absurd hbusy (not_busy (exec_clearCompletion_other htask))

end Completions

end Sys2Proof.Machine

namespace Sys2Proof.Proofs

open Sys2Proof.Machine

/-- Settles O9: RESULT's act read off in each state of the port; a completion fills the slot with a result that does not depend on whether
a RESULT came before it. -/
theorem resultIsReadOnce : Obligations.ResultIsReadOnce := by
  refine ⟨fun s args hrstn => ⟨exec_result_busy args hrstn, fun r hidle => exec_result_idle args hrstn hidle,
    exec_result_empty args hrstn, fun i hi u hbusy hexec hidle => ?_⟩, by decide⟩
  obtain ⟨r, halike⟩ := completesAlike_of_idle hi hbusy hexec hidle
  obtain ⟨w, hw, hwrstn⟩ := halike s.port rfl
  obtain rfl : u = w.finish r := Host.Outcome.next.inj (hexec.symm.trans hw)
  obtain ⟨x, hx, -⟩ := halike { s.transacted args.length with readOut := [0x01#8, 0x00#8] } rfl
  exact ⟨⟨r, rfl, exec_result_idle (s := w.finish r) args (hwrstn.trans hrstn) rfl rfl⟩,
    _, _, exec_result_busy args hrstn hbusy, rfl, hx, rfl, rfl, rfl⟩

end Sys2Proof.Proofs

/-! Reports: the checks of READ in their order, and the payload bytes it answers (R21, R153). -/

namespace Sys2Proof.Machine

/-! ## Payload bytes (R21) -/

/-- Payload byte `i` of a chain stands in block number i div 32 of the chain, at position i mod 32 (R21). -/
theorem payloadByte_of_block (m : Memory) {chain : Chain} {i : Nat} {b : Block} (hb : chain[i / 32]? = some b) :
    payloadByte m chain i = m.read (32 * b + i % 32) := by
  have haddr : chainAddr chain i = some (32 * b + i % 32) := by
    simp [chainAddr, Config.blockBytes, hb, Nat.mul_comm]
  rw [payloadByte, haddr]

@[simp] theorem readPayload_length (m : Memory) (chain : Chain) (offset count : Nat) :
    (readPayload m chain offset count).length = count := by
  simp [readPayload]

theorem readPayload_getElem? (m : Memory) (chain : Chain) (offset : Nat) {count j : Nat} (hj : j < count) :
    (readPayload m chain offset count)[j]? = some (payloadByte m chain (offset + j)) := by
  simp [readPayload, hj]

/-! ## READ's frame and its checks (R144, R153) -/

/-- A two-byte field has its high byte first (R144). -/
theorem word16_toNat (hi lo : Byte) : (word16 hi lo).toNat = hi.toNat * 256 + lo.toNat := by
  rw [word16, BitVec.toNat_append, ← Nat.shiftLeft_add_eq_or_of_lt lo.isLt, Nat.shiftLeft_eq]

/-- Bytes beyond READ's five argument bytes are ignored (R144, R149). -/
theorem parseRead_cons (k1 k0 f1 f0 c : Byte) (more : List Byte) :
    parseRead (k1 :: k0 :: f1 :: f0 :: c :: more) =
      .read (k1 ++ k0) (f1.toNat * 256 + f0.toNat) c.toNat := by
  rw [parseRead, word16_toNat, word16]

/-- A READ with its five argument bytes is accepted with the key, offset and count they spell (R144, R147). -/
theorem exec_read_accepted (k1 k0 f1 f0 c : Byte) (more : List Byte) :
    Accepted (.read (k1 :: k0 :: f1 :: f0 :: c :: more)) (5 + more.length)
      (.command (.read (k1 ++ k0) (f1.toNat * 256 + f0.toNat) c.toNat)) := by
  have haccept : Accepted (.read (k1 :: k0 :: f1 :: f0 :: c :: more)) (k1 :: k0 :: f1 :: f0 :: c :: more).length
      (.command (parseRead (k1 :: k0 :: f1 :: f0 :: c :: more))) := accepted_of_exec_accept fun _ => rfl
  have hlength : (k1 :: k0 :: f1 :: f0 :: c :: more).length = 5 + more.length := by
    simp only [List.length_cons]
    omega
  rwa [parseRead_cons, hlength] at haccept

section ReadChecks

variable {s : State} {key : Key} {offset count : Nat} {e : Entry} {w : Live}

theorem runRead_badKey (offset count : Nat) (s : State) (hkey : badKey key = true) :
    runRead key offset count s = (s, Result.refuse .badKey) :=
  if_pos hkey

theorem runRead_badLength (hkey : ¬badKey key = true) (hcount : count = 0 ∨ 64 < count) :
    runRead key offset count s = (s, Result.refuse .badLength) := by
  rw [runRead, if_neg hkey]
  exact if_pos hcount

theorem runRead_noKey (hkey : ¬badKey key = true) (hcount : ¬(count = 0 ∨ count > 64)) (he : s.dir.entryOf key = none) :
    runRead key offset count s = (s, Result.refuse .noKey) := by
  simp only [runRead, if_neg hkey, if_neg hcount, he]

theorem runRead_state (hkey : ¬badKey key = true) (hcount : ¬(count = 0 ∨ count > 64))
    (he : s.dir.entryOf key = some e) (hbody : ∀ w, e.body ≠ .live w) :
    runRead key offset count s = (s, Result.refuse .state) := by
  rw [runRead, if_neg hkey, if_neg hcount, he]
  dsimp only
  cases hcase : e.body with
  | live w => exact absurd hcase (hbody w)
  | staged slot => rfl
  | withdrawing last remaining slot => rfl
  | spent last => rfl

/-- READ of a LIVE entry has the length check left; past it the bytes are read from the front chain (R153). -/
theorem runRead_live (hkey : ¬badKey key = true) (hcount : ¬(count = 0 ∨ count > 64))
    (he : s.dir.entryOf key = some e) (hbody : e.body = .live w) :
    runRead key offset count s =
      if offset + count > w.length then (s, Result.refuse .overrun)
      else (s, Result.ok (readPayload s.pool.mem w.front offset count)) := by
  simp only [runRead, if_neg hkey, if_neg hcount, he, hbody]

end ReadChecks

/-- A command that answers OK and leaves the state answers its response bytes, and nothing outside the port changes (R147). -/
theorem State.Runs.answers_of_ok {v : State} {c : Command} {bytes : List Byte} (h : v.Runs c)
    (hc : runCommand c v = (v, Result.ok bytes)) : v.Answers .ok bytes := by
  rw [State.Answers, exec_commandCompletion_of_runs h, State.completeCommand_refused v c _ hc]
  rfl

end Sys2Proof.Machine

namespace Sys2Proof.Proofs

open Sys2Proof.Machine

/-- Settles O26: each check of READ in its order; past them the answer is `readPayload` of the front chain, whose bytes stand where R21
places them. -/
theorem readChecksAndAnswers : Obligations.ReadChecksAndAnswers := by
  refine ⟨exec_read_accepted, fun v key offset count hv =>
    ⟨fun hbad => hv.answers_of_refused (runRead_badKey offset count v ((badKey_iff key).mpr hbad)), fun hzero hones => ?_⟩⟩
  have hkey : ¬badKey key = true := mt (badKey_iff key).mp (not_or.mpr ⟨hzero, hones⟩)
  refine ⟨fun hcount => hv.answers_of_refused (runRead_badLength hkey hcount), fun hpos hmax => ?_⟩
  have hcount : ¬(count = 0 ∨ count > 64) := by omega
  refine ⟨fun hnone => hv.answers_of_refused (runRead_noKey hkey hcount hnone), fun e he =>
    ⟨fun hbody => hv.answers_of_refused (runRead_state hkey hcount he hbody), fun w hbody => ?_⟩⟩
  have hrun := runRead_live (offset := offset) hkey hcount he hbody
  refine ⟨fun hover => hv.answers_of_refused (hrun.trans (if_pos hover)), fun hfits =>
    ⟨readPayload v.pool.mem w.front offset count, hv.answers_of_ok (hrun.trans (if_neg (by omega))),
      readPayload_length .., fun j b hj hb => ?_⟩⟩
  rw [readPayload_getElem? _ _ _ hj, payloadByte_of_block _ hb]

end Sys2Proof.Proofs

/-! What a step can do outside the command port, said once: one case per act of the device, each with what held before it. Every
promise about the state is derived from these cases (R107, R147; the rows of spec/opcode_table.json). -/

namespace Sys2Proof.Machine

/-! ## The acts of the device -/

/-- The stop point is set (R115). -/
def State.withStop (s : State) (point : StopPoint) : State := { s with link := { s.link with stop := point } }

/-- The row is STOP's transaction (R114, log 18). -/
def isStop (i : Option Instr) : Prop := ∃ a, i = some (.stop a) ∨ i = some (.unknown 0x03#8 a)

/-- Everything a row can do outside the command port, and a byte-time besides, with what the row has checked before it acts. The row is
named where only that row acts so. -/
inductive State.Move (s : State) : Option Instr → State → Prop
  /-- A row that acts on the port alone, or whose event cannot occur in the state (log 3). -/
  | stay {i} : s.Move i s
  | byteTime {i} : s.Move i (byteTime s)
  | powerOnReset : s.Move (some .powerOnReset) (State.powerOn s.pool.mem s.link.clr s.freeCount s.pending)
  | powerOnInitialisation : s.Move (some .powerOnInitialisation) (State.powerOn s.pool.mem s.link.clr s.freeCount s.pending)
  | status {i} : s.Move i { s with notice := { s.notice with conds := Conditions.none } }
  | stopHalts {i} (hi : isStop i) (hstate : s.link.state ≠ .running) : s.Move i s.stopToHalted
  | stopWaits {i} (hi : isStop i) (point : StopPoint) (hstate : s.link.state = .running) (hpoint : point ≠ .none)
      (hbusy : s.nextEnding.isSome = true ∨ s.cycleOpen = true) :
      s.Move i (s.withStop point)
  | stopAborts {i} (hi : isStop i) (hstate : s.link.state = .running) (hopen : s.cycleOpen = true) :
      s.Move i ((s.withStop .immediate).earlyEnd.beginFrameAfter s.bytesToFinish .abort)
  | stopAbortsEnd {i f} (hi : isStop i) (hstate : s.link.state = .running) (hopen : s.cycleOpen = false)
      (hnext : s.nextEnding = some (.cycleEnd f)) :
      s.Move i ({ s.withStop .immediate with
        engine := { s.engine with truncPrev := true } }.beginFrameAfter s.bytesToFinish .abort)
  | stopTruncates {i} (hi : isStop i) (hstate : s.link.state = .running) (hopen : s.cycleOpen = true)
      (hnext : s.nextEnding = none) :
      s.Move i ((s.withStop .frame).truncatedEnd s.bytesToFinish)
  | stopHaltsNow {i} (hi : isStop i) (hstate : s.link.state = .running) (hopen : s.cycleOpen = false)
      (hnext : s.nextEnding = none) : s.Move i s.enterHalted
  | openSlot {key kind cls length n} (hkey : badKey key = false) (hlength : length ≤ 1024) (hfeed : kind = .feed → 0 < length)
      (hcls : cls ≤ 3) (hholds : s.slots.holds key = false) (hspent : ∀ e, s.dir.entryOf key = some e → ∀ l, e.body ≠ .spent l)
      (hfree : s.slots.lowestFree = some n) (hroom : s.dir.entryOf key = none → s.dir.length < Config.directoryRoom)
      (hspace : blocksTaken kind length ≤ s.pool.free.length) :
      s.Move (some .commandCompletion) (s.openSlot key kind cls length n)
  | write {n x offset data} (hn : s.slots.at n = some x) (hoffset : offset = x.fill) (hfits : offset + data.length ≤ x.length) :
      s.Move (some .commandCompletion) { s with
        slots := s.slots.put n (some (x.written (offset + data.length)))
        pool := { s.pool with mem := writePayload s.pool.mem x.staging offset data } }
  | commit {slot n x confirm e} (hruns : s.Runs (.commit slot confirm)) (hn : s.slots.at n = some x) (hfull : x.full = true)
      (he : s.dir.entryOf x.key = some e) : s.Move (some .commandCompletion) (s.install n x confirm e).wake
  | cancel {n x} (hn : s.slots.at n = some x) :
      s.Move (some .commandCompletion) { s with
        slots := s.slots.put n none, pool := s.pool.release x.chains, dir := s.dir.cancelled x.key }
  | retire {i e v} (hi : i = .retireGroupVisit ∨ i = .commandCompletion ∧ ∃ k, s.Runs (.retire k)) (he : e ∈ s.dir)
      (hbody : e.body = .live v) : s.Move (some i) (s.retireLive e.key v)
  | feed {key e v f offset data} (he : s.dir.entryOf key = some e) (hbody : e.body = .live v) (hfeed : v.feed = some f)
      (hoffset : offset = f.fill) (hfits : offset + data.length ≤ v.length) :
      s.Move (some .commandCompletion) (s.feedPiece key f offset data)
  | notice {e} (he : s.noticed = some e) :
      s.Move (some .commandCompletion) { s with dir := s.dir.collected e, notice := { s.notice with cursor := e.key } }
  | start (hruns : s.Runs .start) (hstate : s.link.state = .halted ∨ s.link.state = .fault) :
      s.Move (some .commandCompletion) s.enterKeying
  | configure {code value p} (hrest : s.link.state.atRest = true) (hset : s.params.set code value = some p) :
      s.Move (some .commandCompletion) { s with
        params := p, dir := if code = 0x04#8 then s.dir.map (Entry.clip p.withdrawals) else s.dir }
  | clear (htask : s.port.task = some .clearing) : s.Move (some .clearCompletion) s.clearStore
  | keyUpExpires {ms} (h : s.link.keyUp = some ms) : s.Move (some .keyUpTimerExpiry) (s.expireKeyUp ms)
  | clrEndsWait (h : s.link.state = .clearWait) : s.Move (some .clrAsserted)
      ({ s with link := { s.link with clr := true }, freeCount := s.freeCount + 1 }.enterRunning s.clrPoint)
  | clrRises (h : s.link.state ≠ .clearWait) : s.Move (some .clrAsserted) { s with link := { s.link with clr := true } }
  | clearWaitExpires {ms} (h : s.link.clearWait = some ms) : s.Move (some .clearWaitTimerExpiry) (s.enterFault .notClear)
  | clrFalls {i} (hi : i = .lossOfClr ∨ i = .clrDeassertion) : s.Move (some i) s.clrFalls
  | pacingExpires {ms} (h : s.link.pacing = .running ms) : s.Move (some .pacingTimerExpiry) (s.expirePacing ms)
  | cycPulseEnds (h : s.link.cyc = true) : s.Move (some .cycPulseEnd) (Machine.byteTime s).cycFalls
  | cycleStarts (h : s.cycleAllowed = true) : s.Move (some .cycleStart) s.sendGap.startCycle
  | choiceEnds (h : s.choiceAllowed = true) (hstop : s.link.stop = .frame) :
      s.Move (some .frameChoice) (s.sendGap.truncatedEnd [])
  | choice (h : s.choiceAllowed = true) (hstop : s.link.stop ≠ .frame) : s.Move (some .frameChoice) s.sendGap.settleQueue.choose
  | cycleStartEnds {f} (h : s.engine.onAir = some (.cycleStart f)) : s.Move (some .cycleStartFrameEnd) s.sendToFrameEnd.afterFrame
  | recordEnds {f} (h : s.engine.onAir = some (.record f)) :
      s.Move (some .recordFrameEnd) (s.sendToFrameEnd.recordDone f).afterFrame
  | withdrawalEnds {f} (h : s.engine.onAir = some (.withdrawal f)) :
      s.Move (some .withdrawalFrameEnd) (s.sendToFrameEnd.withdrawalDone f).afterFrame
  | cycleEndHalts {f} (h : s.nextEnding = some (.cycleEnd f)) : s.Move (some .cycleEndFrameEnd) s.sendToFrameEnd.enterHalted
  | cycleEndSleeps {f} (h : s.nextEnding = some (.cycleEnd f)) (hstop : s.link.stop = .none) :
      s.Move (some .cycleEndFrameEnd) s.sendToFrameEnd.enterDormant
  | cycleEndContinues {f} (h : s.nextEnding = some (.cycleEnd f)) (hstop : s.link.stop = .none) :
      s.Move (some .cycleEndFrameEnd) (s.sendToFrameEnd.endFrame s.params.gap)
  | abortEnds (h : s.nextEnding = some .abort) : s.Move (some .abortFrameEnd) s.sendToFrameEnd.enterHalted

/-- The state with RSTN, the port and the queue at other values: the device outside its command port is the same. -/
def State.withPort (s : State) (r : Bool) (p : Port) (q : List Instr) : State := { s with rstn := r, port := p, pending := q }

/-- The outcome is a next state that a move gives, whatever RSTN and the port are then. A CLEAR in progress then was in progress before,
or has been accepted just now in HALTED or FAULT (R157). -/
def State.Reaches (s : State) (i : Option Instr) (o : Host.Outcome State Fault Refusal) : Prop :=
  ∃ u r p, s.Move i u ∧ o = .next (u.withPort r p u.pending) ∧
    (p.task = some .clearing → s.port.task = some .clearing ∨ s.link.state.atRest = true ∧ u = s)

section Rows

variable {s : State} {i : Option Instr}

/-- No move changes the port but a reset. -/
theorem State.Move.port {u : State} (h : s.Move i u) : u.port = s.port ∨ u.port = Port.powerOn := by
  cases h with
  | powerOnReset => exact .inr rfl
  | powerOnInitialisation => exact .inr rfl
  | choice =>
    refine .inl ?_
    unfold State.choose State.overflowClose
    repeat' split
    all_goals simp
  | clrFalls =>
    refine .inl ?_
    unfold State.clrFalls
    dsimp only
    split <;> simp
  | _ => exact .inl (by simp [State.withStop])

theorem State.Move.reaches {u : State} (h : s.Move i u) : s.Reaches i (.next u) := by
  refine ⟨u, u.rstn, u.port, h, rfl, fun htask => .inl ?_⟩
  obtain hport | hport := h.port
  · rwa [← hport]
  · simp [hport, Port.powerOn] at htask

/-- A row that begins no CLEAR. -/
theorem State.Move.reaches_port {u : State} (h : s.Move i u) (r : Bool) {p : Port}
    (hp : p.task = some .clearing → s.port.task = some .clearing) : s.Reaches i (.next (u.withPort r p u.pending)) :=
  ⟨u, r, p, h, rfl, fun htask => .inl (hp htask)⟩

/-! ### Transactions (R144 to R149) -/

/-- An accepted or discarded transaction acts on the port alone, where its act does. -/
theorem State.gated_reaches {act : State → State}
    (hact : ∀ u, ∃ p, act u = { u with port := p } ∧ (p.task = some .clearing → u.busy = true ∨ u.link.state.atRest = true))
    (n : Nat) : s.Reaches i (.next (s.gated n act)) := by
  unfold State.gated
  split
  · split
    · exact State.Move.stay.reaches_port _ id
    · rename_i hidle
      obtain ⟨p, hp, htask⟩ := hact { s with port := { (s.endTransaction n).port with refused := false } }
      exact ⟨s, s.rstn, p, .stay, congrArg _ hp, fun h => .inr ⟨(htask h).resolve_left hidle, rfl⟩⟩
  · exact State.Move.stay.reaches

theorem State.accept_reaches (args : List Byte) (c : Command) : s.Reaches i (.next (s.accept args c)) :=
  State.gated_reaches (fun u => ⟨(u.begin (.command c)).port, rfl, by simp⟩) _

theorem State.startGroup_port (group : Option Nat) (u : State) : ∃ p, u.startGroup group = { u with port := p } ∧
    (p.task = some .clearing → u.busy = true ∨ u.link.state.atRest = true) := by
  unfold State.startGroup
  repeat' split
  all_goals exact ⟨_, rfl, nofun⟩

theorem State.startClear_port (u : State) : ∃ p, u.startClear = { u with port := p } ∧
    (p.task = some .clearing → u.busy = true ∨ u.link.state.atRest = true) := by
  unfold State.startClear
  split
  · exact ⟨_, rfl, fun _ => .inr ‹_›⟩
  · exact ⟨_, rfl, nofun⟩

theorem State.takeResult_port (u : State) : ∃ p, u.takeResult = { u with port := p } ∧ p.task = u.port.task := by
  unfold State.takeResult
  repeat' split
  all_goals exact ⟨_, rfl, rfl⟩

/-! STOP's act does not look at the port (R114, R115). -/

theorem State.beginFrameAfter_withPort (s : State) (p : Port) (lead : List Byte) (f : AirFrame) :
    (s.withPort s.rstn p s.pending).beginFrameAfter lead f =
      (s.beginFrameAfter lead f).withPort s.rstn p (s.beginFrameAfter lead f).pending := by
  unfold State.beginFrameAfter
  split
  all_goals rfl

/-- IMMEDIATE reached at the STOP's completion (R90, R92). -/
theorem State.reachImmediate_reaches (hi : isStop i) (hstate : s.link.state = .running) {p : Port} (hp : p.task = s.port.task) :
    s.Reaches i (.next ((s.withPort s.rstn p s.pending).withStop .immediate).reachImmediate) := by
  have hfinish (h : s.nextEnding.isSome = true ∨ s.cycleOpen = true) :
      ((s.withPort s.rstn p s.pending).withStop .immediate).bytesToFinish = s.bytesToFinish := s.bytesToFinish_stop .immediate h
  unfold State.reachImmediate
  by_cases hopen : s.cycleOpen = true
  · rw [if_pos (by exact hopen), hfinish (.inr hopen)]
    exact ⟨_, s.rstn, p, .stopAborts hi hstate hopen,
      congrArg _ ((s.withStop .immediate).earlyEnd.beginFrameAfter_withPort p s.bytesToFinish .abort), fun h => .inl (hp ▸ h)⟩
  · rw [if_neg (by exact hopen)]
    have hclosed := Bool.eq_false_of_not_eq_true hopen
    cases hnext : s.nextEnding with
    | none =>
      rw [show ((s.withPort s.rstn p s.pending).withStop .immediate).nextEnding = none from hnext]
      exact ⟨_, s.rstn, p, .stopHaltsNow hi hstate hclosed hnext, rfl, fun h => .inl (hp ▸ h)⟩
    | some f =>
      rw [show ((s.withPort s.rstn p s.pending).withStop .immediate).nextEnding = some f from hnext]
      have hbusy : s.nextEnding.isSome = true := by simp [hnext]
      cases f with
      | cycleEnd f =>
        rw [hfinish (.inl hbusy)]
        exact ⟨_, s.rstn, p, .stopAbortsEnd hi hstate hclosed hnext, congrArg _
          ({ s.withStop .immediate with engine := { s.engine with truncPrev := true } }.beginFrameAfter_withPort p
            s.bytesToFinish .abort), fun h => .inl (hp ▸ h)⟩
      | _ => exact ⟨_, s.rstn, p, .stopWaits hi .immediate hstate nofun (.inl hbusy), rfl, fun h => .inl (hp ▸ h)⟩

/-- FRAME at the STOP's completion (R89, R92). -/
theorem State.reachFrame_reaches (hi : isStop i) (hstate : s.link.state = .running) {p : Port} (hp : p.task = s.port.task) :
    s.Reaches i (.next ((s.withPort s.rstn p s.pending).withStop .frame).reachFrame) := by
  unfold State.reachFrame
  by_cases hnext : s.nextEnding.isSome = true
  · rw [if_pos (by exact hnext)]
    exact ⟨_, s.rstn, p, .stopWaits hi .frame hstate nofun (.inl hnext), rfl, fun h => .inl (hp ▸ h)⟩
  · rw [if_neg (by exact hnext)]
    rw [Option.not_isSome_iff_eq_none] at hnext
    by_cases hopen : s.cycleOpen = true
    · rw [if_pos (by exact hopen),
        show ((s.withPort s.rstn p s.pending).withStop .frame).bytesToFinish = s.bytesToFinish from
          s.bytesToFinish_stop .frame (.inr hopen)]
      exact ⟨_, s.rstn, p, .stopTruncates hi hstate hopen hnext,
        congrArg _ ((s.withStop .frame).earlyEnd.beginFrameAfter_withPort p s.bytesToFinish _), fun h => .inl (hp ▸ h)⟩
    · rw [if_neg (by exact hopen)]
      exact ⟨_, s.rstn, p, .stopHaltsNow hi hstate (Bool.eq_false_of_not_eq_true hopen) hnext, rfl, fun h => .inl (hp ▸ h)⟩

/-- CYCLE at the STOP's completion (R92, R115). -/
theorem State.reachCycle_reaches (hi : isStop i) (hstate : s.link.state = .running) {p : Port} (hp : p.task = s.port.task) :
    s.Reaches i (.next ((s.withPort s.rstn p s.pending).withStop .cycle).reachCycle) := by
  unfold State.reachCycle
  by_cases hidle : (s.nextEnding.isNone && !s.cycleOpen) = true
  · rw [if_pos (by exact hidle)]
    simp only [Bool.and_eq_true, Option.isNone_iff_eq_none, Bool.not_eq_true'] at hidle
    obtain ⟨hnext, hclosed⟩ := hidle
    exact ⟨_, s.rstn, p, .stopHaltsNow hi hstate hclosed hnext, rfl, fun h => .inl (hp ▸ h)⟩
  · rw [if_neg (by exact hidle)]
    refine ⟨_, s.rstn, p, .stopWaits hi .cycle hstate nofun ?_, rfl, fun h => .inl (hp ▸ h)⟩
    cases hnext : s.nextEnding with
    | none => exact .inr (by simpa [hnext] using hidle)
    | some f => exact .inl rfl

theorem State.takeStop_reaches (hi : isStop i) (point : StopPoint) {p : Port} (hp : p.task = s.port.task) :
    s.Reaches i (.next ((s.withPort s.rstn p s.pending).takeStop point)) := by
  have hstays : s.Reaches i (.next (s.withPort s.rstn p s.pending)) := ⟨s, s.rstn, p, .stay, rfl, fun h => .inl (hp ▸ h)⟩
  have hhalts (hstate : s.link.state ≠ .running) :
      s.Reaches i (.next (s.withPort s.rstn p s.pending).stopToHalted) := ⟨_, s.rstn, p, .stopHalts hi hstate, rfl, fun h => .inl (hp ▸ h)⟩
  unfold State.takeStop
  rw [show (s.withPort s.rstn p s.pending).link.state = s.link.state from rfl]
  cases hstate : s.link.state with
  | halted => exact hstays
  | running =>
    unfold State.stopRunning
    rw [show (s.withPort s.rstn p s.pending).link.stop = s.link.stop from rfl]
    dsimp only
    split
    · exact hstays
    · cases s.link.stop.earlier point with
      | none => exact hstays
      | immediate => exact State.reachImmediate_reaches hi hstate hp
      | frame => exact State.reachFrame_reaches hi hstate hp
      | cycle => exact State.reachCycle_reaches hi hstate hp
  | _ => exact hhalts (by simp [hstate])

theorem execStatus_reaches (args : List Byte) : s.Reaches i (execStatus args s) := by
  unfold execStatus State.taken
  split
  · exact State.Move.status.reaches_port _ id
  · exact State.Move.stay.reaches

theorem execResult_reaches (args : List Byte) : s.Reaches i (execResult args s) := by
  unfold execResult State.taken
  split
  · obtain ⟨p, hp, htask⟩ := (s.endTransaction args.length).takeResult_port
    exact ⟨s, s.rstn, p, .stay, congrArg _ hp, fun h => .inl (htask ▸ h)⟩
  · exact State.Move.stay.reaches

theorem execStop_reaches (args : List Byte) (hi : isStop i) :
    s.Reaches i (execStop args s) := by
  unfold execStop State.taken
  cases args with
  | nil =>
    dsimp only
    split
    · exact State.Move.stay.reaches_port _ id
    · exact State.Move.stay.reaches
  | cons p more =>
    dsimp only
    split
    · exact State.takeStop_reaches hi (stopPointOf p) (p := (s.endTransaction (p :: more).length).port) rfl
    · exact State.Move.stay.reaches

theorem execEmptyTransaction_reaches (edge : CsnEdge) : s.Reaches i (execEmptyTransaction edge s) := by
  unfold execEmptyTransaction
  split
  · cases edge with
    | fall => exact State.Move.stay.reaches_port _ id
    | rise => exact State.Move.stay.reaches_port _ id
  · exact State.Move.stay.reaches

/-- UNKNOWN acts as the row of the command its code names, or is accepted (R149, log 18). -/
theorem execUnknown_reaches (code : Byte) (args : List Byte) : s.Reaches (some (.unknown code args)) (execUnknown code args s) := by
  unfold execUnknown
  split
  case h_1 => exact execStatus_reaches args
  case h_2 => exact execResult_reaches args
  case h_3 h =>
    obtain rfl : code = 0x03#8 := BitVec.eq_of_toNat_eq h
    exact execStop_reaches args ⟨_, .inr rfl⟩
  case h_9 => exact State.gated_reaches (State.startGroup_port _) _
  case h_16 => exact State.gated_reaches State.startClear_port _
  all_goals exact State.accept_reaches args _

/-! ### The commands' acts (R147) -/

/-- What a command's act makes of the state is a move of COMMAND_COMPLETION. -/
def State.Acts (s : State) (o : State × Result) : Prop := s.Move (some .commandCompletion) o.1

theorem openArgsRefusal_none {key : Key} {kind : Kind} {cls length : Nat} (h : openArgsRefusal key kind cls length = none) :
    badKey key = false ∧ length ≤ 1024 ∧ (kind = .feed → 0 < length) ∧ cls ≤ 3 := by
  unfold openArgsRefusal at h
  split at h
  · cases h
  · rename_i hkey
    split at h
    · cases h
    · rename_i hlength
      split at h
      · cases h
      · rename_i hcls
        simp only [Bool.or_eq_true, Bool.and_eq_true, decide_eq_true_eq, beq_iff_eq, not_or, not_and] at hlength
        exact ⟨Bool.eq_false_of_not_eq_true hkey, by omega, fun hkind => by have := hlength.2 hkind; omega, by omega⟩

theorem openStateRefusal_none {key : Key} {kind : Kind} {length : Nat} (h : openStateRefusal key kind length s = none) :
    s.slots.holds key = false ∧ (∀ e, s.dir.entryOf key = some e → ∀ l, e.body ≠ .spent l) ∧
      (s.dir.entryOf key = none → s.dir.length < Config.directoryRoom) ∧ blocksTaken kind length ≤ s.pool.free.length := by
  have hspace {o : Option ResultCode} (h : (if blocksTaken kind length > s.pool.free.length then some .noSpace else o) = none) :
      blocksTaken kind length ≤ s.pool.free.length := by
    split at h
    · cases h
    · omega
  unfold openStateRefusal at h
  split at h
  · cases h
  · rename_i hholds
    refine ⟨Bool.eq_false_of_not_eq_true hholds, ?_⟩
    cases he : s.dir.entryOf key with
    | none =>
      rw [he] at h
      dsimp only at h
      split at h
      · cases h
      · split at h
        · cases h
        · rename_i hroom
          exact ⟨fun _ he => absurd he nofun, fun _ => Nat.lt_of_not_le hroom, hspace h⟩
    | some e =>
      rw [he] at h
      dsimp only at h
      split at h
      · cases h
      · rename_i hspent
        split at h
        · cases h
        · exact ⟨fun x hx l hl => hspent l (by rw [Option.some.inj hx, hl]), nofun, hspace h⟩

theorem runOpen_acts (key : Key) (kind : Kind) (cls length : Nat) : s.Acts (runOpen key kind cls length s) := by
  unfold runOpen
  split
  · exact .stay
  · rename_i hargs
    split
    · exact .stay
    · rename_i hstate
      split
      · rename_i n hfree
        obtain ⟨hkey, hlength, hfeed, hcls⟩ := openArgsRefusal_none hargs
        obtain ⟨hholds, hspent, hroom, hspace⟩ := openStateRefusal_none hstate
        exact .openSlot hkey hlength hfeed hcls hholds hspent hfree hroom hspace
      · exact .stay

theorem runWrite_acts (slot offset : Nat) (data : List Byte) : s.Acts (runWrite slot offset data s) := by
  unfold runWrite
  split
  · exact .stay
  · split
    · exact .stay
    · split
      · exact .stay
      · rename_i n _ x hn
        split
        · exact .stay
        · rename_i hoffset
          split
          · exact .stay
          · rename_i hfits
            exact .write hn (not_not.mp hoffset) (by omega)

theorem runCommit_acts (slot : Nat) (confirm : Bool) (hruns : s.Runs (.commit slot confirm)) :
    s.Acts (runCommit slot confirm s) := by
  unfold runCommit
  split
  · exact .stay
  · split
    · exact .stay
    · rename_i hn
      split
      · rename_i hfull
        split
        · rename_i he
          exact .commit hruns hn hfull he
        · exact .stay
      · exact .stay

theorem runCancel_acts (slot : Nat) : s.Acts (runCancel slot s) := by
  unfold runCancel
  split
  · exact .stay
  · split
    · exact .stay
    · rename_i hn
      exact .cancel hn

theorem runRetire_acts (key : Key) (hruns : s.Runs (.retire key)) : s.Acts (runRetire key s) := by
  unfold runRetire
  split
  · exact .stay
  · split
    · exact .stay
    · rename_i e he
      split
      · rename_i v hbody
        obtain rfl := Directory.entryOf_key he
        exact .retire (.inr ⟨rfl, _, hruns⟩) (Directory.entryOf_mem he) hbody
      · exact .stay

theorem runFeed_acts (key : Key) (offset : Nat) (data : List Byte) : s.Acts (runFeed key offset data s) := by
  unfold runFeed
  split
  · exact .stay
  · split
    · exact .stay
    · split
      · exact .stay
      · rename_i he
        split
        · rename_i hbody
          split
          · exact .stay
          · rename_i hfeed
            split
            · exact .stay
            · rename_i hoffset
              split
              · exact .stay
              · rename_i hfits
                exact .feed he hbody hfeed (not_not.mp hoffset) (by omega)
        · exact .stay

theorem runRead_acts (key : Key) (offset count : Nat) : s.Acts (runRead key offset count s) := by
  unfold runRead
  repeat' split
  all_goals exact .stay

theorem runQuery_acts (key : Key) : s.Acts (runQuery key s) := by
  unfold runQuery
  repeat' split
  all_goals exact .stay

theorem runNotice_acts : s.Acts (runNotice s) := by
  unfold runNotice
  split
  · exact .stay
  · rename_i he
    exact .notice he

theorem runStart_acts (hruns : s.Runs .start) : s.Acts (runStart s) := by
  unfold runStart
  cases hstate : s.link.state with
  | halted => exact .start hruns (.inl hstate)
  | fault => exact .start hruns (.inr hstate)
  | _ => exact .stay

theorem runConfigure_acts (code : Byte) (value : Nat) : s.Acts (runConfigure code value s) := by
  unfold runConfigure
  split
  · rename_i hrest
    split
    · rename_i hset
      exact .configure hrest hset
    · exact .stay
  · exact .stay

theorem runCommand_acts {c : Command} (hruns : s.Runs c) : s.Acts (runCommand c s) := by
  cases c with
  | short => exact .stay
  | unknown => exact .stay
  | openSession key kind cls length => exact runOpen_acts key kind cls length
  | write slot offset data => exact runWrite_acts slot offset data
  | commit slot confirm => exact runCommit_acts slot confirm hruns
  | cancel slot => exact runCancel_acts slot
  | retire key => exact runRetire_acts key hruns
  | feed key offset data => exact runFeed_acts key offset data
  | read key offset count => exact runRead_acts key offset count
  | query key => exact runQuery_acts key
  | notice => exact runNotice_acts
  | start => exact runStart_acts hruns
  | configure code value => exact runConfigure_acts code value

/-! ### Completions (R59, R147, R157) -/

theorem State.Move.reaches_finish {u : State} (h : s.Move i u) (r : Result) : s.Reaches i (.next (u.finish r)) :=
  h.reaches_port u.rstn nofun

theorem execCommandCompletion_reaches : s.Reaches (some .commandCompletion) (execCommandCompletion s) := by
  unfold execCommandCompletion
  split
  · rename_i hruns
    exact (runCommand_acts hruns).reaches_finish _
  · exact State.Move.stay.reaches

theorem execRetireGroupVisit_reaches : s.Reaches (some .retireGroupVisit) (execRetireGroupVisit s) := by
  unfold execRetireGroupVisit
  split
  · unfold State.walkStep
    split
    · exact State.Move.stay.reaches_finish _
    · rename_i e he
      split
      · rename_i hbody
        exact (State.Move.retire (.inl rfl) (List.mem_of_find?_eq_some he) hbody).reaches_port s.rstn nofun
      · exact State.Move.stay.reaches_port s.rstn nofun
  · exact State.Move.stay.reaches

theorem execClearCompletion_reaches : s.Reaches (some .clearCompletion) (execClearCompletion s) := by
  unfold execClearCompletion
  split
  · rename_i htask
    exact (State.Move.clear (beq_iff_eq.mp htask)).reaches_finish _
  · exact State.Move.stay.reaches

/-! ### The link (R110 to R118, R129) -/

theorem execKeyUpTimerExpiry_reaches : s.Reaches (some .keyUpTimerExpiry) (execKeyUpTimerExpiry s) := by
  unfold execKeyUpTimerExpiry
  split
  · exact (State.Move.keyUpExpires ‹_›).reaches
  · exact State.Move.stay.reaches

theorem execClrAsserted_reaches : s.Reaches (some .clrAsserted) (execClrAsserted s) := by
  unfold execClrAsserted
  cases hstate : s.link.state with
  | clearWait => exact (State.Move.clrEndsWait hstate).reaches
  | _ => exact (State.Move.clrRises (by simp [hstate])).reaches

theorem execClearWaitTimerExpiry_reaches : s.Reaches (some .clearWaitTimerExpiry) (execClearWaitTimerExpiry s) := by
  unfold execClearWaitTimerExpiry
  split
  · exact (State.Move.clearWaitExpires ‹_›).reaches
  · exact State.Move.stay.reaches

theorem execPacingTimerExpiry_reaches : s.Reaches (some .pacingTimerExpiry) (execPacingTimerExpiry s) := by
  unfold execPacingTimerExpiry
  split
  · exact (State.Move.pacingExpires ‹_›).reaches
  · exact State.Move.stay.reaches
  · exact State.Move.stay.reaches

theorem execCycPulseEnd_reaches : s.Reaches (some .cycPulseEnd) (execCycPulseEnd s) := by
  unfold execCycPulseEnd
  split
  · exact (State.Move.cycPulseEnds ‹_›).reaches
  · exact State.Move.stay.reaches

/-! ### The cycle (R72 to R89, R116 to R119) -/

theorem execCycleStart_reaches : s.Reaches (some .cycleStart) (execCycleStart s) := by
  unfold execCycleStart
  split
  · exact (State.Move.cycleStarts ‹_›).reaches
  · exact State.Move.stay.reaches

theorem execFrameChoice_reaches : s.Reaches (some .frameChoice) (execFrameChoice s) := by
  unfold execFrameChoice
  split
  · split
    · exact (State.Move.choiceEnds ‹_› ‹_›).reaches
    · exact (State.Move.choice ‹_› ‹_›).reaches
  · exact State.Move.stay.reaches

theorem execCycleStartFrameEnd_reaches : s.Reaches (some .cycleStartFrameEnd) (execCycleStartFrameEnd s) := by
  unfold execCycleStartFrameEnd
  split
  · exact (State.Move.cycleStartEnds ‹_›).reaches
  · exact State.Move.stay.reaches

theorem execRecordFrameEnd_reaches : s.Reaches (some .recordFrameEnd) (execRecordFrameEnd s) := by
  unfold execRecordFrameEnd
  split
  · exact (State.Move.recordEnds ‹_›).reaches
  · exact State.Move.stay.reaches

theorem execWithdrawalFrameEnd_reaches : s.Reaches (some .withdrawalFrameEnd) (execWithdrawalFrameEnd s) := by
  unfold execWithdrawalFrameEnd
  split
  · exact (State.Move.withdrawalEnds ‹_›).reaches
  · exact State.Move.stay.reaches

theorem execCycleEndFrameEnd_reaches : s.Reaches (some .cycleEndFrameEnd) (execCycleEndFrameEnd s) := by
  unfold execCycleEndFrameEnd
  split
  · rename_i f hnext
    split
    · exact (State.Move.cycleEndHalts hnext).reaches
    · rename_i hgoes
      have hstop : s.link.stop = .none := not_not.mp fun h => hgoes (.inl h)
      split
      · exact (State.Move.cycleEndSleeps hnext hstop).reaches
      · exact (State.Move.cycleEndContinues hnext hstop).reaches
  · exact State.Move.stay.reaches

theorem execAbortFrameEnd_reaches : s.Reaches (some .abortFrameEnd) (execAbortFrameEnd s) := by
  unfold execAbortFrameEnd
  split
  · exact (State.Move.abortEnds ‹_›).reaches
  · exact State.Move.stay.reaches

/-! ### Reset (R151) -/

theorem execPowerOnReset_reaches : s.Reaches (some .powerOnReset) (execPowerOnReset s) :=
  State.Move.powerOnReset.reaches_port false nofun

theorem execInitialisationEnd_reaches : s.Reaches i (execInitialisationEnd s) := by
  unfold execInitialisationEnd
  split
  · exact State.Move.stay.reaches_port s.rstn nofun
  · exact State.Move.stay.reaches

/-- Every row answers a next state, by one of the moves; RSTN and the port beside it. -/
theorem exec_reaches (i : Instr) (s : State) : s.Reaches (some i) (exec i s) := by
  cases i with
  | powerOnReset => exact execPowerOnReset_reaches
  | powerOnInitialisation => exact State.Move.powerOnInitialisation.reaches
  | initialisationEnd => exact execInitialisationEnd_reaches
  | emptyTransaction edge => exact execEmptyTransaction_reaches edge
  | unknown code args => exact execUnknown_reaches code args
  | status args => exact execStatus_reaches args
  | result args => exact execResult_reaches args
  | stop args => exact execStop_reaches args ⟨args, .inl rfl⟩
  | retireGroup args => exact State.gated_reaches (State.startGroup_port _) _
  | clear args => exact State.gated_reaches State.startClear_port _
  | retireGroupVisit => exact execRetireGroupVisit_reaches
  | clearCompletion => exact execClearCompletion_reaches
  | keyUpTimerExpiry => exact execKeyUpTimerExpiry_reaches
  | clrAsserted => exact execClrAsserted_reaches
  | clearWaitTimerExpiry => exact execClearWaitTimerExpiry_reaches
  | lossOfClr => exact (State.Move.clrFalls (.inl rfl)).reaches
  | clrDeassertion => exact (State.Move.clrFalls (.inr rfl)).reaches
  | pacingTimerExpiry => exact execPacingTimerExpiry_reaches
  | cycleStart => exact execCycleStart_reaches
  | cycleStartFrameEnd => exact execCycleStartFrameEnd_reaches
  | frameChoice => exact execFrameChoice_reaches
  | recordFrameEnd => exact execRecordFrameEnd_reaches
  | withdrawalFrameEnd => exact execWithdrawalFrameEnd_reaches
  | cycleEndFrameEnd => exact execCycleEndFrameEnd_reaches
  | abortFrameEnd => exact execAbortFrameEnd_reaches
  | commandCompletion => exact execCommandCompletion_reaches
  | cycPulseEnd => exact execCycPulseEnd_reaches
  | _ => exact State.accept_reaches _ _

end Rows

/-- What a step does: with RSTN, the port and the queue aside it is one of the moves. -/
theorem step_move {s t : State} (h : step s = .next t) :
    ∃ q i u r p q', (s.withPort s.rstn s.port q).Move i u ∧ t = u.withPort r p q' ∧
      (p.task = some .clearing → s.port.task = some .clearing ∨ s.link.state.atRest = true ∧ u.link = s.link) := by
  unfold step at h
  split at h
  · obtain rfl := Host.Outcome.next.inj h
    exact ⟨s.pending, none, byteTime s, _, _, _, .byteTime, rfl, fun htask => .inl (byteTime_port s ▸ htask)⟩
  · rename_i c rest _
    obtain ⟨u, r, p, hmove, hexec, htask⟩ := exec_reaches c (s.withPort s.rstn s.port rest)
    exact ⟨rest, some c, u, r, p, u.pending, hmove, Host.Outcome.next.inj (h.symm.trans hexec),
      fun hp => (htask hp).imp id fun ⟨hrest, hu⟩ => ⟨hrest, hu ▸ rfl⟩⟩

/-- A promise that does not look at RSTN, the port or the queue is kept by every step when every move keeps it. `Pre` is what the move
may assume besides. -/
theorem step_keeps {Pre Post : State → Prop} (hpre : ∀ s r p q, Pre s → Pre (s.withPort r p q))
    (hpost : ∀ s r p q, Post s → Post (s.withPort r p q)) (hmove : ∀ s i u, Pre s → s.Move i u → Post u) {s t : State}
    (hs : Pre s) (h : step s = .next t) : Post t := by
  obtain ⟨q, i, u, r, p, q', hm, rfl, -⟩ := step_move h
  exact hpost u r p q' (hmove _ i u (hpre s _ _ _ hs) hm)

end Sys2Proof.Machine

/-! The directory's promise: every step keeps the keys ascending, valid and at most 256 (R1, R7). -/

namespace Sys2Proof.Machine

/-! ## The keys of the directory after each operation -/

@[simp] theorem Directory.update_keys (d : Directory) (k : Key) {f : Entry → Entry} (hf : ∀ e, (f e).key = e.key) :
    (d.update k f).map Entry.key = d.map Entry.key := by
  simp only [Directory.update, List.map_map]
  refine List.map_congr_left fun e _ => ?_
  simp only [Function.comp_apply]
  split
  · exact hf e
  · rfl

theorem Directory.remove_keys_sublist (d : Directory) (k : Key) : ((d.remove k).map Entry.key).Sublist (d.map Entry.key) :=
  List.filter_sublist.map _

@[simp] theorem Entry.withSlot_key (o : Option SlotNo) (e : Entry) : (e.withSlot o).key = e.key := rfl
@[simp] theorem Entry.commit_key (x : Session) (c : Bool) (e : Entry) : (e.commit x c).key = e.key := rfl
@[simp] theorem Entry.recordSent_key (v : Byte) (e : Entry) : (e.recordSent v).key = e.key := by
  unfold Entry.recordSent; repeat' split
  all_goals rfl
@[simp] theorem Entry.withdrawalSent_key (e : Entry) : e.withdrawalSent.key = e.key := by
  unfold Entry.withdrawalSent; repeat' split
  all_goals rfl
@[simp] theorem Entry.retire_key (w : Nat) (e : Entry) : (e.retire w).key = e.key := by
  unfold Entry.retire; split <;> rfl
@[simp] theorem Entry.fed_key (offset fill : Nat) (e : Entry) : (e.fed offset fill).key = e.key := by
  unfold Entry.fed; split <;> rfl
@[simp] theorem Entry.clip_key (w : Nat) (e : Entry) : (e.clip w).key = e.key := by
  unfold Entry.clip; split <;> rfl
@[simp] theorem Entry.atCycleStart_key (limit : Nat) (cycle : Word16) (e : Entry) : (e.atCycleStart limit cycle).key = e.key := by
  unfold Entry.atCycleStart; split <;> rfl
@[simp] theorem Entry.atFrameStart_key (e : Entry) : e.atFrameStart.key = e.key := by
  unfold Entry.atFrameStart; split <;> rfl

theorem Directory.collected_keys_sublist (d : Directory) (e : Entry) :
    ((d.collected e).map Entry.key).Sublist (d.map Entry.key) := by
  unfold Directory.collected
  split
  · exact d.remove_keys_sublist e.key
  · rw [Directory.update_keys d e.key (f := fun x => { x with flags := Flags.none }) fun _ => rfl]

theorem Directory.cancelled_keys_sublist (d : Directory) (k : Key) :
    ((d.cancelled k).map Entry.key).Sublist (d.map Entry.key) := by
  unfold Directory.cancelled
  split
  · split
    · exact d.remove_keys_sublist k
    · rw [Directory.update_keys d k (Entry.withSlot_key none)]
  · exact List.Sublist.refl _

theorem Directory.withdrawalSent_keys_sublist (d : Directory) (k : Key) (b : Bool) :
    ((d.withdrawalSent k b).map Entry.key).Sublist (d.map Entry.key) := by
  unfold Directory.withdrawalSent
  split
  · exact d.remove_keys_sublist k
  · rw [Directory.update_keys d k Entry.withdrawalSent_key]

/-! ## The record store after each act -/

section Store

variable (s : State)

@[simp] theorem State.openSlot_dir (key : Key) (kind : Kind) (cls length : Nat) (n : SlotNo) :
    (s.openSlot key kind cls length n).dir = s.dir.opened key n := rfl
@[simp] theorem State.install_dir (n : SlotNo) (x : Session) (c : Bool) (e : Entry) :
    (s.install n x c e).dir = s.dir.update x.key (Entry.commit x c) := rfl
@[simp] theorem State.retireLive_dir (key : Key) (v : Live) :
    (s.retireLive key v).dir = s.dir.update key (Entry.retire s.params.withdrawals) := rfl
@[simp] theorem State.feedPiece_dir (key : Key) (f : Feed) (offset : Nat) (data : List Byte) :
    (s.feedPiece key f offset data).dir = s.dir.update key (Entry.fed offset (offset + data.length)) := rfl
@[simp] theorem State.clearStore_dir : s.clearStore.dir = [] := rfl
@[simp] theorem State.powerOn_dir (mem : Memory) (clr : Bool) (n : Nat) (q : List Instr) : (State.powerOn mem clr n q).dir = [] := rfl
@[simp] theorem State.startCycle_dir : s.startCycle.dir =
    s.dir.map (Entry.atCycleStart s.params.confirmLimit (s.engine.cycle + 1#16)) := rfl
@[simp] theorem State.recordDone_dir (f : RecordFrame) :
    (s.recordDone f).dir = s.dir.update f.key (Entry.recordSent f.version) := rfl
@[simp] theorem State.withdrawalDone_dir (f : WithdrawalFrame) :
    (s.withdrawalDone f).dir = s.dir.withdrawalSent f.key s.params.spentNotice := rfl
@[simp] theorem State.withStop_dir (p : StopPoint) : (s.withStop p).dir = s.dir := rfl

@[simp] theorem State.clrFalls_dir : s.clrFalls.dir = s.dir := by
  unfold State.clrFalls; dsimp only; split <;> simp
@[simp] theorem State.clrFalls_slots : s.clrFalls.slots = s.slots := by
  unfold State.clrFalls; dsimp only; split <;> simp
@[simp] theorem State.clrFalls_params : s.clrFalls.params = s.params := by
  unfold State.clrFalls; dsimp only; split <;> simp

end Store

/-- A choice closes the cycle, or starts the frame of the candidate's entry (R74). -/
theorem State.choose_cases (s : State) :
    s.choose = s.closeCycle ∧ s.candidate = none ∨
      (∃ source e, s.candidate = some (source, e) ∧ s.choose = s.startFrame source e ∧ s.engine.fits e.body.cost = true) ∨
      ∃ source e, s.candidate = some (source, e) ∧ s.choose = s.overflowClose ∧ s.engine.fits e.body.cost = false := by
  unfold State.choose
  split
  · exact .inl ⟨rfl, ‹_›⟩
  · rename_i source e he
    split
    · exact .inr (.inl ⟨source, e, he, rfl, ‹_›⟩)
    · exact .inr (.inr ⟨source, e, he, rfl, Bool.eq_false_of_not_eq_true ‹_›⟩)

theorem State.startFrame_dir_cases (s : State) (source : Source) (e : Entry) :
    (s.startFrame source e).dir = s.dir ∨ (s.startFrame source e).dir = s.dir.update e.key Entry.atFrameStart := by
  unfold State.startFrame
  split
  · exact .inr rfl
  · exact .inl rfl

theorem State.choose_keys (s : State) : s.choose.dir.map Entry.key = s.dir.map Entry.key := by
  obtain ⟨h, -⟩ | ⟨source, e, -, h, -⟩ | ⟨source, e, -, h, -⟩ := s.choose_cases
  · rw [h, State.closeCycle_dir]
  · rw [h]
    obtain hdir | hdir := s.startFrame_dir_cases source e
    · rw [hdir]
    · rw [hdir, Directory.update_keys _ _ Entry.atFrameStart_key]
  · rw [h, State.overflowClose_dir]

/-! ## The promise -/

theorem State.directoryOk_iff (s : State) : s.directoryOk ↔
    (s.dir.map Entry.key).Pairwise (· < ·) ∧ (s.dir.map Entry.key).length ≤ Config.directoryRoom ∧
      ∀ k ∈ s.dir.map Entry.key, badKey k = false := by
  simp [State.directoryOk, List.pairwise_map]

/-- The promise is about the keys alone, and it is kept where keys are left out. -/
theorem State.directoryOk.of_keys_sublist {s u : State} (h : s.directoryOk)
    (hk : (u.dir.map Entry.key).Sublist (s.dir.map Entry.key)) : u.directoryOk := by
  obtain ⟨hsorted, hroom, hvalid⟩ := s.directoryOk_iff.mp h
  exact u.directoryOk_iff.mpr ⟨hsorted.sublist hk, hk.length_le.trans hroom, fun k hmem => hvalid k (hk.subset hmem)⟩

/-- OPEN adds an entry only below the 256th, with a valid key, in its key's place (R7, R11, R37). -/
theorem State.openSlot_directoryOk {s : State} (h : s.directoryOk) {key : Key} (kind : Kind) (cls length : Nat) (n : SlotNo)
    (hkey : badKey key = false) (hroom : s.dir.entryOf key = none → s.dir.length < Config.directoryRoom) :
    (s.openSlot key kind cls length n).directoryOk := by
  cases he : s.dir.entryOf key with
  | some e =>
    refine h.of_keys_sublist ?_
    simp only [State.openSlot_dir, Directory.opened, he, Directory.update_keys _ _ (Entry.withSlot_key _), List.Sublist.refl]
  | none =>
    obtain ⟨hsorted, -, hvalid⟩ := h
    have hdir : (s.openSlot key kind cls length n).dir = s.dir.insert (stagedEntry key n) := by
      simp only [State.openSlot_dir, Directory.opened, he]
    refine ⟨hdir ▸ Directory.insert_sorted hsorted _, ?_, fun e hmem => ?_⟩
    · rw [hdir, Directory.insert_length he]
      exact hroom he
    · obtain rfl | hmem := Directory.mem_insert (hdir ▸ hmem)
      · exact hkey
      · exact hvalid e hmem

theorem State.Move.keeps_directory {s u : State} {i : Option Instr} (h : s.Move i u) (hs : s.directoryOk) : u.directoryOk := by
  cases h with
  | openSlot hkey _ _ _ _ _ _ hroom _ => exact State.openSlot_directoryOk hs _ _ _ _ hkey hroom
  | commit => exact hs.of_keys_sublist (by simp [Directory.update_keys _ _ (Entry.commit_key _ _)])
  | cancel => exact hs.of_keys_sublist (Directory.cancelled_keys_sublist _ _)
  | retire => exact hs.of_keys_sublist (by simp)
  | feed => exact hs.of_keys_sublist (by simp)
  | notice => exact hs.of_keys_sublist (Directory.collected_keys_sublist _ _)
  | configure =>
    refine hs.of_keys_sublist ?_
    dsimp only
    split <;> simp [Function.comp_def]
  | cycleStarts => exact hs.of_keys_sublist (by simp [Function.comp_def])
  | choice => exact hs.of_keys_sublist (by simp [State.choose_keys])
  | recordEnds => exact hs.of_keys_sublist (by simp)
  | withdrawalEnds => exact hs.of_keys_sublist (by simpa using Directory.withdrawalSent_keys_sublist _ _ _)
  | _ => exact hs.of_keys_sublist (by simp)

end Sys2Proof.Machine

namespace Sys2Proof.Proofs

open Sys2Proof.Machine

/-- Settles O52: of all moves only OPEN adds a key, and it has checked the key and the room. -/
theorem stepKeepsTheDirectory : Obligations.StepKeepsTheDirectory := fun _ _ hs h =>
  step_keeps (Pre := State.directoryOk) (fun _ _ _ _ hs => hs) (fun _ _ _ _ hs => hs) (fun _ _ _ hs hm => hm.keeps_directory hs) hs h

end Sys2Proof.Proofs

/-! The blocks: every step keeps each of the 2,048 blocks in exactly one place (R19, R24 to R29). Each act moves blocks between the pool's
own lists, the entries and the slots, and the count of a block over the three stays. -/

namespace Sys2Proof.Machine

/-! ## The blocks of the directory -/

/-- The blocks of all entries. -/
def Directory.blocks (d : Directory) : List Block := d.flatMap (fun e => e.body.blocks)

/-- An entry of a sorted directory stands alone with its key. -/
theorem Directory.exists_split {d : Directory} (hs : d.sorted) {e : Entry} (he : e ∈ d) :
    ∃ l r, d = l ++ e :: r ∧ (∀ x ∈ l, x.key ≠ e.key) ∧ ∀ x ∈ r, x.key ≠ e.key := by
  obtain ⟨l, r, rfl⟩ := List.append_of_mem he
  have hcons := List.pairwise_append.mp hs
  refine ⟨l, r, rfl, fun x hx h => ?_, fun x hx h => ?_⟩
  · have hlt := hcons.2.2 x hx e (by simp)
    exact absurd hlt (h ▸ BitVec.lt_irrefl _)
  · have hlt := (List.pairwise_cons.mp hcons.2.1).1 x hx
    exact absurd hlt (h ▸ BitVec.lt_irrefl _)

theorem Directory.update_eq_self {d : Directory} {k : Key} (f : Entry → Entry) (h : ∀ x ∈ d, x.key ≠ k) : d.update k f = d :=
  (List.map_congr_left fun x hx => if_neg (h x hx)).trans (List.map_id' d)

/-- An update of one entry of a sorted directory. -/
theorem Directory.update_split {d : Directory} (hs : d.sorted) {e : Entry} (he : e ∈ d) (f : Entry → Entry) :
    ∃ l r, d = l ++ e :: r ∧ d.update e.key f = l ++ f e :: r ∧ d.remove e.key = l ++ r := by
  obtain ⟨l, r, rfl, hl, hr⟩ := Directory.exists_split hs he
  refine ⟨l, r, rfl, ?_, ?_⟩
  · have hleft := Directory.update_eq_self f hl
    have hright := Directory.update_eq_self f hr
    unfold Directory.update at *
    rw [List.map_append, List.map_cons, hleft, hright, if_pos rfl]
  · unfold Directory.remove
    rw [List.filter_append, List.filter_cons_of_neg (by simp), List.filter_eq_self.mpr, List.filter_eq_self.mpr]
    · exact fun x hx => bne_iff_ne.mpr (hr x hx)
    · exact fun x hx => bne_iff_ne.mpr (hl x hx)

/-- What an update takes from one entry and gives it (R19). -/
theorem Directory.update_blocks {d : Directory} (hs : d.sorted) {e : Entry} (he : e ∈ d) (f : Entry → Entry) (b : Block) :
    (d.update e.key f).blocks.count b + e.body.blocks.count b = d.blocks.count b + (f e).body.blocks.count b := by
  obtain ⟨l, r, hd, hu, -⟩ := Directory.update_split hs he f
  rw [hu, hd]
  simp only [Directory.blocks, List.flatMap_append, List.flatMap_cons, List.count_append]
  omega

theorem Directory.remove_blocks {d : Directory} (hs : d.sorted) {e : Entry} (he : e ∈ d) (b : Block) :
    (d.remove e.key).blocks.count b + e.body.blocks.count b = d.blocks.count b := by
  obtain ⟨l, r, hd, -, hr⟩ := Directory.update_split hs he id
  rw [hr, hd]
  simp only [Directory.blocks, List.flatMap_append, List.flatMap_cons, List.count_append]
  omega

/-- A change that keeps every entry's blocks keeps the directory's. -/
theorem Directory.map_blocks {f : Entry → Entry} (hf : ∀ e, (f e).body.blocks.Perm e.body.blocks) (d : Directory) :
    Directory.blocks (d.map f) |>.Perm d.blocks := by
  unfold Directory.blocks
  rw [List.flatMap_map]
  exact List.Perm.flatMap_left d fun e _ => hf e

theorem Directory.update_blocks_perm {f : Entry → Entry} (hf : ∀ e, (f e).body.blocks.Perm e.body.blocks) (d : Directory) (k : Key) :
    (d.update k f).blocks.Perm d.blocks :=
  Directory.map_blocks (f := fun e => if e.key = k then f e else e) (fun e => by split; exacts [hf e, .refl _]) d

theorem Directory.insert_blocks {d : Directory} {e : Entry} (he : d.entryOf e.key = none) (hb : e.body.blocks = []) :
    (d.insert e).blocks = d.blocks := by
  rw [Directory.entryOf_eq_none] at he
  induction d with
  | nil => simp [Directory.insert, Directory.blocks, hb]
  | cons x d ih =>
    have hx : e.key ≠ x.key := fun h => he x (by simp) h.symm
    have hrest := ih fun y hy => he y (by simp [hy])
    unfold Directory.insert
    simp only [hx, if_false]
    simp only [Directory.blocks] at hrest ⊢
    split
    · simp [hb]
    · simp [hrest]

/-! ### The blocks of an entry after each change -/

@[simp] theorem Body.blocks_withSlot (o : Option SlotNo) (b : Body) : (b.withSlot o).blocks = b.blocks := by
  cases b <;> rfl

theorem Entry.commit_blocks (x : Session) (c : Bool) (e : Entry) : (e.commit x c).body.blocks = x.chains := by
  have hback : (e.commit x c).body.back = x.spare.getD [] := by
    simp only [Entry.commit, Body.back, Session.installed]
    cases x.spare <;> rfl
  exact congrArg (x.staging ++ ·) hback

theorem Entry.retire_blocks {e : Entry} {v : Live} (h : e.body = .live v) (w : Nat) : (e.retire w).body.blocks = [] := by
  simp only [Entry.retire, h]
  rfl

theorem Entry.fed_blocks (offset fill : Nat) (e : Entry) : (e.fed offset fill).body.blocks = e.body.blocks := by
  unfold Entry.fed
  split
  · rename_i v h
    rw [h]
    simp only [Body.blocks, Body.front, Body.back]
    cases v.feed with
    | none => rfl
    | some f =>
      simp only [Option.map_some, Feed.afterPiece]
      split <;> rfl
  · rfl

theorem Entry.clip_blocks (w : Nat) (e : Entry) : (e.clip w).body.blocks = e.body.blocks := by
  unfold Entry.clip
  split
  · rename_i h
    rw [h]
    rfl
  · rfl

theorem Entry.atCycleStart_blocks (limit : Nat) (cycle : Word16) (e : Entry) :
    (e.atCycleStart limit cycle).body.blocks = e.body.blocks := by
  unfold Entry.atCycleStart
  split
  · rename_i h
    rw [h]
    rfl
  · rfl

theorem Entry.recordSent_blocks (version : Byte) (e : Entry) : (e.recordSent version).body.blocks = e.body.blocks := by
  unfold Entry.recordSent
  split
  · rename_i h
    split
    · rw [h]
      rfl
    · rfl
  · rfl

theorem Entry.withdrawalSent_blocks (e : Entry) : e.withdrawalSent.body.blocks = e.body.blocks := by
  unfold Entry.withdrawalSent
  split
  · rename_i h
    split
    · split
      · rfl
      · rw [h]
        rfl
    · rw [h]
      rfl
  · rfl

/-- A swap exchanges the two chains of the entry (R99). -/
theorem Entry.atFrameStart_blocks (e : Entry) : e.atFrameStart.body.blocks.Perm e.body.blocks := by
  unfold Entry.atFrameStart
  split
  · rename_i v h
    rw [h]
    simp only [Live.atFrameStart]
    cases hf : v.feed with
    | none => exact .refl _
    | some f =>
      dsimp only
      split
      · simpa only [Body.blocks, Body.front, Body.back, hf] using List.perm_append_comm
      · exact .refl _
  · exact .refl _

theorem Body.blocks_eq_nil {b : Body} (h : ∀ v, b ≠ .live v) : b.blocks = [] := by
  cases b with
  | live v => exact absurd rfl (h v)
  | _ => rfl

theorem Directory.removed_blocks {d : Directory} (hs : d.sorted) {e : Entry} (he : e ∈ d) (h : ∀ v, e.body ≠ .live v) (b : Block) :
    (d.remove e.key).blocks.count b = d.blocks.count b := by
  have hcount := Directory.remove_blocks hs he b
  rwa [Body.blocks_eq_nil h] at hcount

theorem Directory.opened_blocks (d : Directory) (key : Key) (n : SlotNo) : (d.opened key n).blocks.Perm d.blocks := by
  unfold Directory.opened
  split
  · exact Directory.update_blocks_perm (fun e => by simp [Entry.withSlot]) d key
  · rename_i he
    exact .of_eq (Directory.insert_blocks (e := stagedEntry key n) he rfl)

theorem Directory.cancelled_blocks {d : Directory} (hs : d.sorted) (key : Key) (b : Block) :
    (d.cancelled key).blocks.count b = d.blocks.count b := by
  unfold Directory.cancelled
  split
  · rename_i e he
    obtain rfl := Directory.entryOf_key he
    split
    · rename_i hstaged
      refine Directory.removed_blocks hs (Directory.entryOf_mem he) (fun v hv => ?_) b
      simp [Entry.isStaged, hv] at hstaged
    · exact (Directory.update_blocks_perm (fun e => by simp [Entry.withSlot]) d _).count_eq b
  · rfl

theorem Directory.collected_blocks {d : Directory} (hs : d.sorted) {e : Entry} (he : e ∈ d) (b : Block) :
    (d.collected e).blocks.count b = d.blocks.count b := by
  unfold Directory.collected
  split
  · rename_i hspent
    refine Directory.removed_blocks hs he (fun v hv => ?_) b
    simp [Entry.isSpent, hv] at hspent
  · exact (Directory.update_blocks_perm (f := fun x => { x with flags := Flags.none }) (fun e => .refl _) d _).count_eq b

theorem Directory.withdrawalSent_blocks {d : Directory} (hs : d.sorted) (key : Key) (spentNotice : Bool) (b : Block) :
    (d.withdrawalSent key spentNotice).blocks.count b = d.blocks.count b := by
  unfold Directory.withdrawalSent
  split
  · rename_i h
    simp only [Bool.and_eq_true, Option.any_eq_true] at h
    obtain ⟨-, e, he, hends⟩ := h
    obtain rfl := Directory.entryOf_key he
    refine Directory.removed_blocks hs (Directory.entryOf_mem he) (fun v hv => ?_) b
    simp [Entry.withdrawalEnds, hv] at hends
  · exact (Directory.update_blocks_perm (fun e => .of_eq e.withdrawalSent_blocks) d key).count_eq b

/-! ## The blocks of the slots -/

/-- The blocks of all four slots. -/
def Slots.blocks (x : Slots) : List Block := slotNumbers.flatMap (fun n => slotBlocks (x.at n))

@[simp] theorem Slots.at_put_same (x : Slots) (n : SlotNo) (o : Option Session) : (x.put n o).at n = o := by
  simp [Slots.at, Slots.put]

@[simp] theorem Slots.at_put_other (x : Slots) {n m : SlotNo} (o : Option Session) (h : m ≠ n) : (x.put n o).at m = x.at m := by
  have hval : n.val ≠ m.val := fun c => h (Fin.ext c.symm)
  simp [Slots.at, Slots.put, Vector.getElem_set_ne _ _ hval]

/-- What a change of one slot takes from it and gives it (R19). -/
theorem Slots.put_blocks (x : Slots) (n : SlotNo) (o : Option Session) (b : Block) :
    (x.put n o).blocks.count b + (slotBlocks (x.at n)).count b = x.blocks.count b + (slotBlocks o).count b := by
  have hcount (y : Slots) : y.blocks.count b = (slotBlocks (y.at 0)).count b + (slotBlocks (y.at 1)).count b +
      (slotBlocks (y.at 2)).count b + (slotBlocks (y.at 3)).count b := by
    simp [Slots.blocks, slotNumbers, List.count_append, Nat.add_assoc]
  rw [hcount, hcount]
  fin_cases n <;> simp <;> omega

@[simp] theorem Slots.allFree_at (n : SlotNo) : Slots.allFree.at n = none := by
  simp [Slots.at, Slots.allFree]

theorem Slots.lowestFree_at {x : Slots} {n : SlotNo} (h : x.lowestFree = some n) : x.at n = none := by
  have hfound := List.find?_some h
  simpa using hfound

/-! ## The pool after each act -/

section Held

variable (s : State)

@[simp] theorem State.retireLive_pool (key : Key) (v : Live) :
    (s.retireLive key v).pool = s.pool.displace s.engine.onAir key v := rfl
@[simp] theorem State.install_pool (n : SlotNo) (x : Session) (c : Bool) (e : Entry) :
    (s.install n x c e).pool = s.pool.displaceBody s.engine.onAir x.key e.body := rfl
@[simp] theorem State.install_slots (n : SlotNo) (x : Session) (c : Bool) (e : Entry) :
    (s.install n x c e).slots = s.slots.put n none := rfl
@[simp] theorem State.feedPiece_held (key : Key) (f : Feed) (offset : Nat) (data : List Byte) :
    (s.feedPiece key f offset data).pool.held = s.pool.held := rfl
@[simp] theorem State.recordDone_pool (f : RecordFrame) : (s.recordDone f).pool = s.pool.releaseHold := rfl
@[simp] theorem State.withdrawalDone_pool (f : WithdrawalFrame) : (s.withdrawalDone f).pool = s.pool.releaseHold := rfl
@[simp] theorem State.withStop_pool (p : StopPoint) : (s.withStop p).pool = s.pool := rfl
@[simp] theorem State.withStop_slots (p : StopPoint) : (s.withStop p).slots = s.slots := rfl

@[simp] theorem State.afterFrame_held : s.afterFrame.pool.held = s.pool.held := by
  unfold State.afterFrame; split <;> simp [Pool.releaseHold_held]

@[simp] theorem State.clrFalls_held : s.clrFalls.pool.held = s.pool.held := by
  unfold State.clrFalls State.cutLine
  dsimp only
  repeat' split
  all_goals simp [Pool.releaseHold_held]

@[simp] theorem State.choose_pool : s.choose.pool = s.pool := by
  obtain ⟨h, -⟩ | ⟨source, e, -, h, -⟩ | ⟨source, e, -, h, -⟩ := s.choose_cases <;> simp [h]

@[simp] theorem State.choose_slots : s.choose.slots = s.slots := by
  obtain ⟨h, -⟩ | ⟨source, e, -, h, -⟩ | ⟨source, e, -, h, -⟩ := s.choose_cases <;> simp [h]

theorem State.choose_blocks : s.choose.dir.blocks.Perm s.dir.blocks := by
  obtain ⟨h, -⟩ | ⟨source, e, -, h, -⟩ | ⟨source, e, -, h, -⟩ := s.choose_cases
  · rw [h, State.closeCycle_dir]
  · rw [h]
    obtain hdir | hdir := s.startFrame_dir_cases source e
    · rw [hdir]
    · rw [hdir]
      exact Directory.update_blocks_perm Entry.atFrameStart_blocks _ _
  · rw [h, State.overflowClose_dir]

end Held

/-! ## The promise -/

/-- The number of times a block stands in some place. -/
def State.blockCount (s : State) (b : Block) : Nat := s.pool.held.count b + s.dir.blocks.count b + s.slots.blocks.count b

theorem State.count_allBlocks (s : State) (b : Block) : s.allBlocks.count b = s.blockCount b := by
  simp only [State.allBlocks, State.blockCount, Pool.held, List.count_append]
  rfl

theorem State.blocksOk.of_count {s u : State} (h : s.blocksOk) (hcount : ∀ b, u.blockCount b = s.blockCount b) : u.blocksOk := by
  have hperm : u.allBlocks.Perm s.allBlocks := List.perm_iff_count.mpr fun b => by
    rw [State.count_allBlocks, State.count_allBlocks, hcount]
  exact hperm.trans h

theorem State.blockCount_congr {s u : State} {b : Block} (hpool : u.pool.held.count b = s.pool.held.count b)
    (hdir : u.dir.blocks.count b = s.dir.blocks.count b) (hslots : u.slots = s.slots) : u.blockCount b = s.blockCount b := by
  rw [State.blockCount, State.blockCount, hpool, hdir, hslots]

theorem State.wake_blockCount (s : State) (b : Block) : s.wake.blockCount b = s.blockCount b := by
  simp only [State.blockCount, State.wake_pool, State.wake_dir, State.wake_slots]

/-- With every list of the pool rebuilt and no entry and no session left, the free list holds every block (R31). -/
theorem State.blocksOk_of_empty {u : State} (hpool : u.pool.held = List.range Config.poolBlocks) (hdir : u.dir = [])
    (hslots : u.slots = Slots.allFree) : u.blocksOk := by
  refine List.perm_iff_count.mpr fun b => ?_
  rw [State.count_allBlocks, State.blockCount, hpool, hdir, hslots]
  simp [Directory.blocks, Slots.blocks, slotNumbers, slotBlocks]

/-- An OPEN moves blocks from the free list to the slot (R22). -/
theorem State.openSlot_blockCount {s : State} {n : SlotNo} (hn : s.slots.at n = none) (key : Key) (kind : Kind) (cls length : Nat)
    (b : Block) : (s.openSlot key kind cls length n).blockCount b = s.blockCount b := by
  have hfree := congrArg (List.count b) (openedSession_chains key kind cls length s.pool.free)
  have hslots := s.slots.put_blocks n (some (openedSession key kind cls length s.pool.free)) b
  have hdir := (s.dir.opened_blocks key n).count_eq b
  simp only [hn, slotBlocks, List.count_append, List.count_nil] at hfree hslots
  simp only [State.blockCount, State.openSlot, Pool.held, List.count_append, hdir]
  omega

/-- A COMMIT moves the entry's chains to the pool and the slot's to the entry (R13, R26). -/
theorem State.install_blockCount {s : State} (hs : s.dir.sorted) {n : SlotNo} {x : Session} {e : Entry}
    (hn : s.slots.at n = some x) (he : s.dir.entryOf x.key = some e) (c : Bool) (b : Block) :
    (s.install n x c e).blockCount b = s.blockCount b := by
  have hpool := (s.pool.displaceBody_held s.engine.onAir x.key e.body).count_eq b
  have hslots := s.slots.put_blocks n none b
  have hdir := Directory.update_blocks hs (Directory.entryOf_mem he) (Entry.commit x c) b
  rw [Directory.entryOf_key he, Entry.commit_blocks] at hdir
  simp only [hn, slotBlocks, List.count_nil] at hslots
  simp only [Body.blocks, List.count_append] at hpool hdir
  simp only [State.blockCount, State.install_pool, State.install_dir, State.install_slots]
  omega

/-- A retired entry's chains go to the pool (R27). -/
theorem State.retireLive_blockCount {s : State} (hs : s.dir.sorted) {e : Entry} {v : Live} (he : e ∈ s.dir) (hbody : e.body = .live v)
    (b : Block) : (s.retireLive e.key v).blockCount b = s.blockCount b := by
  have hpool := (s.pool.displace_held s.engine.onAir e.key v).count_eq b
  have hdir := Directory.update_blocks hs he (Entry.retire s.params.withdrawals) b
  rw [Entry.retire_blocks hbody, hbody] at hdir
  simp only [Body.blocks, List.count_append, List.count_nil] at hpool hdir
  simp only [State.blockCount, State.retireLive_pool, State.retireLive_dir, State.retireLive_slots]
  omega

/-- A CANCEL moves the slot's chains to the free list (R25). -/
theorem State.cancel_blockCount {s : State} (hs : s.dir.sorted) {n : SlotNo} {x : Session} (hn : s.slots.at n = some x) (b : Block) :
    { s with slots := s.slots.put n none, pool := s.pool.release x.chains, dir := s.dir.cancelled x.key }.blockCount b =
      s.blockCount b := by
  have hpool := (s.pool.release_held x.chains).count_eq b
  have hslots := s.slots.put_blocks n none b
  have hdir := Directory.cancelled_blocks hs x.key b
  simp only [hn, slotBlocks, List.count_nil, List.count_append] at hslots hpool
  simp only [State.blockCount, hdir]
  omega

/-- A WRITE leaves the slot's chains as they are. -/
theorem State.write_blockCount {s : State} {n : SlotNo} {x : Session} (hn : s.slots.at n = some x) (fill : Nat) (m : Memory)
    (b : Block) :
    { s with slots := s.slots.put n (some (x.written fill)), pool := { s.pool with mem := m } }.blockCount b =
      s.blockCount b := by
  have hslots := s.slots.put_blocks n (some (x.written fill)) b
  have hsame : slotBlocks (some (x.written fill)) = slotBlocks (s.slots.at n) := by
    rw [hn]
    rfl
  rw [hsame] at hslots
  simp only [State.blockCount, Pool.held]
  omega

theorem State.noticed_mem {s : State} {e : Entry} (h : s.noticed = some e) : e ∈ s.dir := by
  have hmem := List.mem_of_find?_eq_some h
  simp only [Directory.scanOrder, List.mem_append, List.mem_filter] at hmem
  exact hmem.elim And.left And.left

theorem State.Move.keeps_blocks {s u : State} {i : Option Instr} (h : s.Move i u) (hd : s.directoryOk) (hs : s.blocksOk) :
    u.blocksOk := by
  have hsorted : s.dir.sorted := hd.1
  cases h with
  | openSlot _ _ _ _ _ _ hfree =>
    exact hs.of_count (State.openSlot_blockCount (Slots.lowestFree_at hfree) _ _ _ _)
  | write hn => exact hs.of_count (State.write_blockCount hn _ _)
  | commit _ hn _ he => exact hs.of_count fun b =>
      (State.wake_blockCount _ b).trans (State.install_blockCount hsorted hn he _ b)
  | cancel hn => exact hs.of_count (State.cancel_blockCount hsorted hn)
  | retire _ he hbody => exact hs.of_count (State.retireLive_blockCount hsorted he hbody)
  | feed => exact hs.of_count fun b =>
      State.blockCount_congr (by simp) ((Directory.update_blocks_perm (fun e => .of_eq (e.fed_blocks _ _)) _ _).count_eq b) rfl
  | notice he => exact hs.of_count fun b => State.blockCount_congr rfl (Directory.collected_blocks hsorted (State.noticed_mem he) b) rfl
  | configure =>
    refine hs.of_count fun b => State.blockCount_congr rfl ?_ rfl
    dsimp only
    split
    · exact (Directory.map_blocks (fun e => .of_eq (e.clip_blocks _)) _).count_eq b
    · rfl
  | clear => exact State.blocksOk_of_empty (by simp [State.clearStore, Pool.held, Pool.rebuilt]) rfl rfl
  | powerOnReset => exact State.blocksOk_of_empty (by simp [State.powerOn, Pool.held, Pool.rebuilt]) rfl rfl
  | powerOnInitialisation => exact State.blocksOk_of_empty (by simp [State.powerOn, Pool.held, Pool.rebuilt]) rfl rfl
  | cycleStarts => exact hs.of_count fun b =>
      State.blockCount_congr rfl ((Directory.map_blocks (fun e => .of_eq (e.atCycleStart_blocks _ _)) _).count_eq b) rfl
  | choice =>
    refine hs.of_count fun b => State.blockCount_congr ?_ ?_ ?_
    · simp
    · simpa using (State.choose_blocks s.sendGap.settleQueue).count_eq b
    · simp
  | recordEnds =>
    refine hs.of_count fun b => State.blockCount_congr ?_ ?_ ?_
    · simp [Pool.releaseHold_held]
    · simpa using (Directory.update_blocks_perm (fun e => .of_eq (e.recordSent_blocks _)) _ _).count_eq b
    · simp
  | withdrawalEnds =>
    refine hs.of_count fun b => State.blockCount_congr ?_ ?_ ?_
    · simp [Pool.releaseHold_held]
    · simpa using Directory.withdrawalSent_blocks hsorted _ _ b
    · simp
  | _ =>
    refine hs.of_count fun b => State.blockCount_congr ?_ ?_ ?_
    all_goals simp [Pool.releaseHold_held]

end Sys2Proof.Machine

namespace Sys2Proof.Proofs

open Sys2Proof.Machine

/-- Settles O53: each move's count of a block over pool, entries and slots is the count before. -/
theorem stepKeepsTheBlocks : Obligations.StepKeepsTheBlocks := fun _ _ hd hs h =>
  step_keeps (Pre := fun s => s.directoryOk ∧ s.blocksOk) (Post := State.blocksOk) (fun _ _ _ _ hs => hs) (fun _ _ _ _ hs => hs)
    (fun _ _ _ hs hm => hm.keeps_blocks hs.1 hs.2) ⟨hd, hs⟩ h

end Sys2Proof.Proofs

/-! The sessions: every step keeps slots and entries naming each other, and each session in range (R11, R21, R32, R33). -/

namespace Sys2Proof.Machine

/-! ## Who names whom -/

/-- Some entry with this key names the slot. -/
def Directory.Names (d : Directory) (k : Key) (n : SlotNo) : Prop := ∃ e ∈ d, e.key = k ∧ e.body.slot = some n

/-- The key a slot holds; absent while it is FREE. -/
def Slots.keyAt (x : Slots) (n : SlotNo) : Option Key := (x.at n).map Session.key

/-- Slots and entries name each other when a slot holds a key exactly if that key's entry names the slot (R33). -/
theorem State.bindingOk_iff (s : State) : s.bindingOk ↔ ∀ n k, s.slots.keyAt n = some k ↔ s.dir.Names k n := by
  constructor
  · rintro ⟨hslots, hentries⟩ n k
    constructor
    · intro h
      obtain ⟨x, hx, rfl⟩ := Option.map_eq_some_iff.mp h
      exact hslots n x hx
    · rintro ⟨e, he, rfl, hslot⟩
      obtain ⟨x, hx, hkey⟩ := hentries e he n hslot
      exact Option.map_eq_some_iff.mpr ⟨x, hx, hkey⟩
  · intro h
    refine ⟨fun n x hx => (h n x.key).mp (Option.map_eq_some_iff.mpr ⟨x, hx, rfl⟩), fun e he n hslot => ?_⟩
    obtain ⟨x, hx, hkey⟩ := Option.map_eq_some_iff.mp ((h n e.key).mpr ⟨e, he, rfl, hslot⟩)
    exact ⟨x, hx, hkey⟩

/-- In a sorted directory a key names one entry. -/
theorem Directory.eq_of_key {d : Directory} (hs : d.sorted) {e x : Entry} (he : e ∈ d) (hx : x ∈ d) (h : x.key = e.key) : x = e :=
  Option.some.inj ((Directory.entryOf_of_mem hs hx).symm.trans (h ▸ Directory.entryOf_of_mem hs he))

theorem Directory.mem_update {d : Directory} {k : Key} {f : Entry → Entry} {x : Entry} (h : x ∈ d.update k f) :
    (x ∈ d ∧ x.key ≠ k) ∨ ∃ e ∈ d, e.key = k ∧ x = f e := by
  obtain ⟨e, he, rfl⟩ := List.mem_map.mp h
  split
  · exact .inr ⟨e, he, ‹_›, rfl⟩
  · exact .inl ⟨he, ‹_›⟩

theorem Directory.names_map {f : Entry → Entry} (hkey : ∀ e, (f e).key = e.key) (hslot : ∀ e, (f e).body.slot = e.body.slot)
    (d : Directory) (k : Key) (n : SlotNo) : Directory.Names (d.map f) k n ↔ d.Names k n := by
  simp [Directory.Names, hkey, hslot]

theorem Directory.names_update {f : Entry → Entry} (hkey : ∀ e, (f e).key = e.key) (hslot : ∀ e, (f e).body.slot = e.body.slot)
    (d : Directory) (k' : Key) (k : Key) (n : SlotNo) : (d.update k' f).Names k n ↔ d.Names k n :=
  Directory.names_map (f := fun e => if e.key = k' then f e else e) (fun e => by split <;> simp [hkey])
    (fun e => by split <;> simp [hslot]) d k n

/-- Removing an entry without a slot takes no name away. -/
theorem Directory.names_remove {d : Directory} (hs : d.sorted) {e : Entry} (he : e ∈ d) (hslot : e.body.slot = none) (k : Key)
    (n : SlotNo) : (d.remove e.key).Names k n ↔ d.Names k n := by
  constructor
  · rintro ⟨x, hx, hrest⟩
    exact ⟨x, (List.mem_filter.mp hx).1, hrest⟩
  · rintro ⟨x, hx, hkey, hn⟩
    have hne : x.key ≠ e.key := fun h => by
      rw [Directory.eq_of_key hs he hx h, hslot] at hn
      cases hn
    exact ⟨x, List.mem_filter.mpr ⟨hx, by simpa using hne⟩, hkey, hn⟩

/-- Taking the slot field from a key's entry, or removing the entry, leaves the names of the other keys alone. -/
theorem Directory.names_of_dropped {d d' : Directory} {key : Key} (hother : ∀ e, e.key ≠ key → (e ∈ d' ↔ e ∈ d))
    (hkey : ∀ e ∈ d', e.key = key → e.body.slot = none) (k : Key) (n : SlotNo) : d'.Names k n ↔ k ≠ key ∧ d.Names k n := by
  constructor
  · rintro ⟨e, he, rfl, hn⟩
    have hne : e.key ≠ key := fun h => by
      rw [hkey e he h] at hn
      cases hn
    exact ⟨hne, e, (hother e hne).mp he, rfl, hn⟩
  · rintro ⟨hne, e, he, rfl, hn⟩
    exact ⟨e, (hother e hne).mpr he, rfl, hn⟩

theorem Directory.mem_update_other {d : Directory} {k : Key} {f : Entry → Entry} (hf : ∀ e, (f e).key = e.key) {x : Entry}
    (hx : x.key ≠ k) : x ∈ d.update k f ↔ x ∈ d := by
  constructor
  · intro h
    obtain ⟨hmem, -⟩ | ⟨e, -, hek, rfl⟩ := Directory.mem_update h
    · exact hmem
    · exact absurd ((hf e).trans hek) hx
  · exact fun h => List.mem_map.mpr ⟨x, h, if_neg hx⟩

theorem Directory.mem_remove {d : Directory} {k : Key} {x : Entry} : x ∈ d.remove k ↔ x ∈ d ∧ x.key ≠ k := by
  simp [Directory.remove]

/-! ### The names after each change of the directory -/

theorem Body.slot_withSlot_none {b : Body} (h : ∀ n, b ≠ .staged n) : (b.withSlot none).slot = none := by
  cases b with
  | staged n => exact absurd rfl (h n)
  | _ => rfl

theorem Body.slot_withSlot_some {b : Body} (h : ∀ l, b ≠ .spent l) (n : SlotNo) : (b.withSlot (some n)).slot = some n := by
  cases b with
  | spent l => exact absurd rfl (h l)
  | _ => rfl

/-- After a CANCEL no entry of its key names a slot (R14). -/
theorem Directory.names_cancelled {d : Directory} (hs : d.sorted) (key k : Key) (n : SlotNo) :
    (d.cancelled key).Names k n ↔ k ≠ key ∧ d.Names k n := by
  unfold Directory.cancelled
  split
  · rename_i e he
    split
    · exact Directory.names_of_dropped (fun x hx => by simp [Directory.mem_remove, hx])
        (fun x hx hkey => absurd hkey (Directory.mem_remove.mp hx).2) k n
    · rename_i hstaged
      refine Directory.names_of_dropped (fun x hx => Directory.mem_update_other (Entry.withSlot_key none) hx) (fun x hx hkey => ?_) k n
      obtain ⟨-, hne⟩ | ⟨y, hy, hyk, rfl⟩ := Directory.mem_update hx
      · exact absurd hkey hne
      · obtain rfl : y = e := Directory.eq_of_key hs (Directory.entryOf_mem he) hy (hyk.trans (Directory.entryOf_key he).symm)
        refine Body.slot_withSlot_none fun m hm => hstaged ?_
        simp [Entry.isStaged, hm]
  · rename_i hnone
    refine Directory.names_of_dropped (fun _ _ => Iff.rfl) (fun x hx hkey => ?_) k n
    exact absurd hkey (Directory.entryOf_eq_none.mp hnone x hx)

/-- After a COMMIT no entry of its key names a slot (R13). -/
theorem Directory.names_commit (d : Directory) (x : Session) (c : Bool) (k : Key) (n : SlotNo) :
    (d.update x.key (Entry.commit x c)).Names k n ↔ k ≠ x.key ∧ d.Names k n := by
  refine Directory.names_of_dropped (fun y hy => Directory.mem_update_other (Entry.commit_key x c) hy) (fun y hy hkey => ?_) k n
  obtain ⟨-, hne⟩ | ⟨z, -, -, rfl⟩ := Directory.mem_update hy
  · exact absurd hkey hne
  · rfl

theorem Directory.mem_insert_other {d : Directory} {e x : Entry} (hx : x.key ≠ e.key) (h : x ∈ d) : x ∈ d.insert e := by
  induction d with
  | nil => simp at h
  | cons y d ih =>
    unfold Directory.insert
    split
    · exact List.mem_cons_of_mem _ h
    · split
      · rename_i heq
        obtain rfl | h := List.mem_cons.mp h
        · exact absurd heq.symm hx
        · exact List.mem_cons_of_mem _ h
      · obtain rfl | h := List.mem_cons.mp h
        · exact List.mem_cons_self ..
        · exact List.mem_cons_of_mem _ (ih h)

/-- After an OPEN its key's entry names the slot, and the names of the other keys stay (R11, R12). -/
theorem Directory.names_opened {d : Directory} {key : Key} {n : SlotNo}
    (hspent : ∀ e, d.entryOf key = some e → ∀ l, e.body ≠ .spent l) (hs : d.sorted) (k : Key) (m : SlotNo) :
    (d.opened key n).Names k m ↔ k = key ∧ m = n ∨ k ≠ key ∧ d.Names k m := by
  by_cases hk : k = key
  · subst hk
    simp only [true_and, ne_eq, not_true_eq_false, false_and, or_false]
    unfold Directory.opened
    split
    · rename_i e he
      have hslot := Body.slot_withSlot_some (hspent e he) n
      constructor
      · rintro ⟨x, hx, hkey, hm⟩
        obtain ⟨-, hne⟩ | ⟨y, hy, hyk, rfl⟩ := Directory.mem_update hx
        · exact absurd hkey hne
        · obtain rfl : y = e := Directory.eq_of_key hs (Directory.entryOf_mem he) hy (hyk.trans (Directory.entryOf_key he).symm)
          exact Option.some.inj (hm.symm.trans hslot)
      · rintro rfl
        exact ⟨e.withSlot (some m), List.mem_map.mpr ⟨e, Directory.entryOf_mem he, if_pos (Directory.entryOf_key he)⟩,
          (Directory.entryOf_key he : e.key = k), hslot⟩
    · rename_i hnone
      constructor
      · rintro ⟨x, hx, hkey, hm⟩
        obtain rfl | hx := Directory.mem_insert hx
        · exact (Option.some.inj hm).symm
        · exact absurd hkey (Directory.entryOf_eq_none.mp hnone x hx)
      · rintro rfl
        exact ⟨_, Directory.entryOf_mem (Directory.entryOf_insert_same d (stagedEntry k m)), rfl, rfl⟩
  · simp only [hk, false_and, ne_eq, not_false_eq_true, true_and, false_or]
    unfold Directory.opened
    split
    · constructor
      · rintro ⟨x, hx, rfl, hm⟩
        exact ⟨x, (Directory.mem_update_other (Entry.withSlot_key _) hk).mp hx, rfl, hm⟩
      · rintro ⟨x, hx, rfl, hm⟩
        exact ⟨x, (Directory.mem_update_other (Entry.withSlot_key _) hk).mpr hx, rfl, hm⟩
    · constructor
      · rintro ⟨x, hx, rfl, hm⟩
        obtain rfl | hx := Directory.mem_insert hx
        · exact absurd rfl hk
        · exact ⟨x, hx, rfl, hm⟩
      · rintro ⟨x, hx, rfl, hm⟩
        exact ⟨x, Directory.mem_insert_other (e := stagedEntry key n) hk hx, rfl, hm⟩

theorem Entry.retire_slot (w : Nat) (e : Entry) : (e.retire w).body.slot = e.body.slot := by
  unfold Entry.retire
  split
  · rename_i h
    rw [h]
    rfl
  · rfl

theorem Entry.fed_slot (offset fill : Nat) (e : Entry) : (e.fed offset fill).body.slot = e.body.slot := by
  unfold Entry.fed
  split
  · rename_i h
    rw [h]
    rfl
  · rfl

theorem Entry.clip_slot (w : Nat) (e : Entry) : (e.clip w).body.slot = e.body.slot := by
  unfold Entry.clip
  split
  · rename_i h
    rw [h]
    rfl
  · rfl

theorem Entry.atCycleStart_slot (limit : Nat) (cycle : Word16) (e : Entry) :
    (e.atCycleStart limit cycle).body.slot = e.body.slot := by
  unfold Entry.atCycleStart
  split
  · rename_i h
    rw [h]
    rfl
  · rfl

theorem Live.atFrameStart_slot (v : Live) : v.atFrameStart.slot = v.slot := by
  unfold Live.atFrameStart
  repeat' split
  all_goals rfl

theorem Entry.atFrameStart_slot (e : Entry) : e.atFrameStart.body.slot = e.body.slot := by
  unfold Entry.atFrameStart
  split
  · rename_i v h
    rw [h]
    exact v.atFrameStart_slot
  · rfl

theorem Entry.recordSent_slot (version : Byte) (e : Entry) : (e.recordSent version).body.slot = e.body.slot := by
  unfold Entry.recordSent
  split
  · rename_i h
    split
    · rw [h]
      rfl
    · rfl
  · rfl

theorem Entry.withdrawalSent_slot (e : Entry) : e.withdrawalSent.body.slot = e.body.slot := by
  unfold Entry.withdrawalSent
  split
  · rename_i h
    split
    · split
      · rfl
      · rw [h]
        rfl
    · rw [h]
      rfl
  · rfl

/-- NOTICE removes an entry only when it is SPENT, and such an entry names no slot (R17). -/
theorem Directory.names_collected {d : Directory} (hs : d.sorted) {e : Entry} (he : e ∈ d) (k : Key) (n : SlotNo) :
    (d.collected e).Names k n ↔ d.Names k n := by
  unfold Directory.collected
  split
  · rename_i hspent
    refine Directory.names_remove hs he ?_ k n
    cases hb : e.body with
    | spent l => rfl
    | _ => simp [Entry.isSpent, hb] at hspent
  · exact Directory.names_update (f := fun x => { x with flags := Flags.none }) (fun _ => rfl) (fun _ => rfl) d e.key k n

/-- A withdrawal ends, and its entry may be removed, only with no slot open (R16). -/
theorem Directory.names_withdrawalSent {d : Directory} (hs : d.sorted) (key : Key) (spentNotice : Bool) (k : Key) (n : SlotNo) :
    (d.withdrawalSent key spentNotice).Names k n ↔ d.Names k n := by
  unfold Directory.withdrawalSent
  split
  · rename_i h
    simp only [Bool.and_eq_true, Option.any_eq_true] at h
    obtain ⟨-, e, he, hends⟩ := h
    obtain rfl := Directory.entryOf_key he
    refine Directory.names_remove hs (Directory.entryOf_mem he) ?_ k n
    unfold Entry.withdrawalEnds at hends
    split at hends
    · rename_i hb
      rw [hb]
      rfl
    · cases hends
  · exact Directory.names_update Entry.withdrawalSent_key Entry.withdrawalSent_slot d key k n

/-! ## The binding after each act -/

@[simp] theorem Slots.keyAt_put_same (x : Slots) (n : SlotNo) (o : Option Session) : (x.put n o).keyAt n = o.map Session.key := by
  simp [Slots.keyAt]

@[simp] theorem Slots.keyAt_put_other (x : Slots) {n m : SlotNo} (o : Option Session) (h : m ≠ n) :
    (x.put n o).keyAt m = x.keyAt m := by
  simp [Slots.keyAt, h]

theorem Slots.holds_iff (x : Slots) (k : Key) : x.holds k = true ↔ ∃ n y, x.at n = some y ∧ y.key = k := by
  have hall (n : SlotNo) : n ∈ slotNumbers := by fin_cases n <;> decide
  simp only [Slots.holds, List.any_eq_true]
  constructor
  · rintro ⟨n, -, h⟩
    cases hx : x.at n with
    | none => simp [hx] at h
    | some y => exact ⟨n, y, hx, by simpa [hx] using h⟩
  · rintro ⟨n, y, hx, hy⟩
    exact ⟨n, hall n, by simp [hx, hy]⟩

theorem State.bindingOk.of_same {s u : State} (h : s.bindingOk) (hslots : u.slots = s.slots)
    (hnames : ∀ k n, u.dir.Names k n ↔ s.dir.Names k n) : u.bindingOk := by
  rw [State.bindingOk_iff] at h ⊢
  intro n k
  rw [hslots, hnames]
  exact h n k

/-- A freed slot and the key it held name each other no longer, and every other pair stays. -/
theorem State.bindingOk.of_freed {s u : State} (h : s.bindingOk) (hs : s.dir.sorted) {n : SlotNo} {x : Session}
    (hn : s.slots.at n = some x) (hslots : u.slots = s.slots.put n none)
    (hnames : ∀ k m, u.dir.Names k m ↔ k ≠ x.key ∧ s.dir.Names k m) : u.bindingOk := by
  rw [State.bindingOk_iff] at h ⊢
  intro m k
  rw [hslots, hnames]
  have hkey : s.slots.keyAt n = some x.key := by simp [Slots.keyAt, hn]
  by_cases hm : m = n
  · subst hm
    rw [← h, hkey]
    simp [eq_comm]
  · rw [Slots.keyAt_put_other _ _ hm, h]
    refine ⟨fun hk => ⟨fun hx => hm ?_, hk⟩, And.right⟩
    obtain ⟨e, he, hek, hem⟩ := hx ▸ hk
    obtain ⟨e', he', hek', hen⟩ := (h n x.key).mp hkey
    obtain rfl := Directory.eq_of_key hs he he' (hek'.trans hek.symm)
    exact Option.some.inj (hem.symm.trans hen)

theorem State.openSlot_bindingOk {s : State} (h : s.bindingOk) (hs : s.dir.sorted) {key : Key} {n : SlotNo} (kind : Kind)
    (cls length : Nat) (hholds : s.slots.holds key = false) (hspent : ∀ e, s.dir.entryOf key = some e → ∀ l, e.body ≠ .spent l)
    (hn : s.slots.at n = none) : (s.openSlot key kind cls length n).bindingOk := by
  rw [State.bindingOk_iff] at h ⊢
  intro m k
  rw [State.openSlot_dir, Directory.names_opened hspent hs]
  show (s.slots.put n _).keyAt m = some k ↔ _
  by_cases hm : m = n
  · subst hm
    have hfree : ¬s.dir.Names k m := fun hk => by
      have := (h m k).mpr hk
      simp [Slots.keyAt, hn] at this
    simp [hfree, openedSession, eq_comm]
  · rw [Slots.keyAt_put_other _ _ hm, h]
    simp only [hm, and_false, false_or]
    refine ⟨fun hk => ⟨fun hx => ?_, hk⟩, And.right⟩
    obtain ⟨x, hx', hxk⟩ := Option.map_eq_some_iff.mp ((h m k).mpr hk)
    have hheld := (s.slots.holds_iff key).mpr ⟨m, x, hx', hxk.trans hx⟩
    simp [hholds] at hheld

theorem State.bindingOk_of_empty {u : State} (hdir : u.dir = []) (hslots : u.slots = Slots.allFree) : u.bindingOk := by
  rw [State.bindingOk_iff]
  intro n k
  simp [hdir, hslots, Slots.keyAt, Directory.Names]

theorem State.choose_names (s : State) (k : Key) (n : SlotNo) : s.choose.dir.Names k n ↔ s.dir.Names k n := by
  obtain ⟨h, -⟩ | ⟨source, e, -, h, -⟩ | ⟨source, e, -, h, -⟩ := s.choose_cases
  · rw [h, State.closeCycle_dir]
  · rw [h]
    obtain hdir | hdir := s.startFrame_dir_cases source e
    · rw [hdir]
    · rw [hdir, Directory.names_update Entry.atFrameStart_key Entry.atFrameStart_slot]
  · rw [h, State.overflowClose_dir]

theorem State.Move.keeps_binding {s u : State} {i : Option Instr} (h : s.Move i u) (hs : s.dir.sorted) (hb : s.bindingOk) :
    u.bindingOk := by
  cases h with
  | openSlot _ _ _ _ hholds hspent hfree =>
    exact State.openSlot_bindingOk hb hs _ _ _ hholds hspent (Slots.lowestFree_at hfree)
  | @write n x offset data hn =>
    rw [State.bindingOk_iff] at hb ⊢
    intro m k
    refine Iff.trans (Eq.congr_left ?_) (hb m k)
    by_cases hm : m = n
    · subst hm
      simp [Slots.keyAt, hn, Session.written]
    · exact Slots.keyAt_put_other _ _ hm
  | commit _ hn =>
    exact hb.of_freed hs hn (by simp) (by simpa using Directory.names_commit _ _ _)
  | cancel hn => exact hb.of_freed hs hn rfl (Directory.names_cancelled hs _)
  | retire => exact hb.of_same rfl (Directory.names_update (Entry.retire_key _) (Entry.retire_slot _) _ _)
  | feed => exact hb.of_same rfl (Directory.names_update (Entry.fed_key _ _) (Entry.fed_slot _ _) _ _)
  | notice he => exact hb.of_same rfl (Directory.names_collected hs (State.noticed_mem he))
  | configure =>
    refine hb.of_same rfl fun k n => ?_
    dsimp only
    split
    · exact Directory.names_map (Entry.clip_key _) (Entry.clip_slot _) _ k n
    · exact Iff.rfl
  | clear => exact State.bindingOk_of_empty rfl rfl
  | powerOnReset => exact State.bindingOk_of_empty rfl rfl
  | powerOnInitialisation => exact State.bindingOk_of_empty rfl rfl
  | cycleStarts => exact hb.of_same rfl (Directory.names_map (Entry.atCycleStart_key _ _) (Entry.atCycleStart_slot _ _) _)
  | choice => exact hb.of_same (by simp) (by simpa using State.choose_names s.sendGap.settleQueue)
  | recordEnds =>
    refine hb.of_same (by simp) ?_
    simpa using Directory.names_update (Entry.recordSent_key _) (Entry.recordSent_slot _) s.dir _
  | withdrawalEnds => exact hb.of_same (by simp) (by simpa using Directory.names_withdrawalSent hs _ _)
  | _ => exact hb.of_same (by simp) (by simp)

/-! ## The sessions' ranges -/

/-- The ranges of one session (R21, R22, R32). -/
def Session.Ok (x : Session) : Prop :=
  x.cls ≤ 3 ∧ x.length ≤ 1024 ∧ x.fill ≤ x.length ∧ x.staging.length = blocksFor x.length ∧
    ∀ c ∈ x.spare, c.length = blocksFor x.length ∧ 0 < x.length

theorem State.sessionsOk_iff (s : State) : s.sessionsOk ↔ ∀ n x, s.slots.at n = some x → x.Ok := Iff.rfl

theorem State.sessionsOk.of_slots {s u : State} (h : s.sessionsOk) (hslots : u.slots = s.slots) : u.sessionsOk := by
  unfold State.sessionsOk
  rw [hslots]
  exact h

theorem State.sessionsOk.of_put {s u : State} (h : s.sessionsOk) {n : SlotNo} {o : Option Session} (hslots : u.slots = s.slots.put n o)
    (ho : ∀ x ∈ o, x.Ok) : u.sessionsOk := by
  rw [State.sessionsOk_iff] at h ⊢
  intro m x hx
  rw [hslots] at hx
  by_cases hm : m = n
  · subst hm
    exact ho x (by simpa using hx)
  · exact h m x (by simpa [hm] using hx)

/-- A session that OPEN begins has its ranges from OPEN's checks, and its chains from a free list long enough (R22, R34, R37). -/
theorem openedSession_ok {key : Key} {kind : Kind} {cls length : Nat} {free : List Block} (hlength : length ≤ 1024)
    (hfeed : kind = .feed → 0 < length) (hcls : cls ≤ 3) (hspace : blocksTaken kind length ≤ free.length) :
    (openedSession key kind cls length free).Ok := by
  cases kind with
  | stored =>
    refine ⟨hcls, hlength, Nat.zero_le _, ?_, nofun⟩
    simp only [blocksTaken] at hspace
    simpa [openedSession] using hspace
  | feed =>
    simp only [blocksTaken] at hspace
    refine ⟨hcls, hlength, Nat.zero_le _, ?_, fun c hc => ?_⟩
    · simp only [openedSession, List.length_take]
      omega
    · obtain rfl := Option.some.inj hc
      refine ⟨?_, hfeed rfl⟩
      simp only [openedSession, List.length_take, List.length_drop]
      omega

theorem State.Move.keeps_sessions {s u : State} {i : Option Instr} (h : s.Move i u) (hs : s.sessionsOk) : u.sessionsOk := by
  cases h with
  | openSlot _ hlength hfeed hcls _ _ _ _ hspace =>
    refine hs.of_put rfl fun x hx => ?_
    obtain rfl := Option.some.inj hx
    exact openedSession_ok hlength hfeed hcls hspace
  | write hn _ hfits =>
    refine hs.of_put rfl fun y hy => ?_
    obtain rfl := Option.some.inj hy
    obtain ⟨hcls, hlength, -, hchains⟩ := hs _ _ hn
    exact ⟨hcls, hlength, hfits, hchains⟩
  | commit _ hn => exact hs.of_put (o := none) (State.wake_slots _) nofun
  | cancel hn => exact hs.of_put (o := none) rfl nofun
  | clear => exact fun n x hx => by simp [State.clearStore] at hx
  | powerOnReset => exact fun n x hx => by simp [State.powerOn] at hx
  | powerOnInitialisation => exact fun n x hx => by simp [State.powerOn] at hx
  | _ => exact hs.of_slots (by simp)

end Sys2Proof.Machine

namespace Sys2Proof.Proofs

open Sys2Proof.Machine

/-- Settles O54: the sessions in range move by move, and the binding as "a slot holds a key exactly if that key's entry names it". -/
theorem stepKeepsTheSessions : Obligations.StepKeepsTheSessions := fun _ _ hd hs hb h =>
  step_keeps (Pre := fun s => s.directoryOk ∧ s.sessionsOk ∧ s.bindingOk) (Post := fun s => s.sessionsOk ∧ s.bindingOk)
    (fun _ _ _ _ hs => hs) (fun _ _ _ _ hs => hs)
    (fun _ _ _ ⟨hd, hs, hb⟩ hm => ⟨hm.keeps_sessions hs, hm.keeps_binding hd.1 hb⟩) ⟨hd, hs, hb⟩ h

end Sys2Proof.Proofs

/-! The entries' fields (R4, R5, R8, R16, R17, R94, R133), the withdrawal count's range (R156) and the form of the pool's contents. -/

namespace Sys2Proof.Machine

/-! ## An entry's promise after each change -/

section Entries

variable {w : Nat} {e : Entry}

theorem Entry.ok_live {v : Live} (hb : e.body = .live v) : e.ok w ↔ v.ok := by
  simp only [Entry.ok, hb]

theorem Entry.ok_withdrawing {l : Last} {r : Nat} {o : Option SlotNo} (hb : e.body = .withdrawing l r o) :
    e.ok w ↔ l.ok ∧ 1 ≤ r ∧ r ≤ w := by
  simp only [Entry.ok, hb]

theorem Entry.ok_spent {l : Last} (hb : e.body = .spent l) : e.ok w ↔ l.ok ∧ e.flags.withdrawn = true := by
  simp only [Entry.ok, hb]

theorem Entry.ok_withSlot (o : Option SlotNo) (h : e.ok w) : (e.withSlot o).ok w := by
  unfold Entry.ok at h
  split at h
  all_goals
    rename_i hb
    simp only [Entry.ok, Entry.withSlot, Body.withSlot, hb]
    exact h

/-- Sent-this-cycle is no part of the promise. -/
theorem Entry.ok_sent (b : Bool) (h : e.ok w) : { e with sent := b }.ok w := h

/-- A COMMIT installs the session's content, whose ranges the session has kept (R13). -/
theorem Entry.ok_commit {x : Session} (hx : x.Ok) (confirm : Bool) (e : Entry) : (e.commit x confirm).ok w := by
  obtain ⟨hcls, hlength, -, hstaging, hspare⟩ := hx
  refine ⟨hcls, hlength, hstaging, fun f hf => ?_, fun c hc => ?_⟩
  · obtain ⟨spare, hs, rfl⟩ := Option.map_eq_some_iff.mp hf
    obtain ⟨hblocks, hpos⟩ := hspare spare hs
    exact ⟨hblocks, hpos, nofun⟩
  · simp only [Session.installed] at hc
    split at hc
    · obtain rfl := Option.some.inj hc
      exact Nat.zero_le _
    · cases hc

theorem Entry.ok_retire (hpos : 1 ≤ w) (h : e.ok w) : (e.retire w).ok w := by
  unfold Entry.retire
  split
  · rename_i v hb
    obtain ⟨hcls, hlength, -⟩ := (Entry.ok_live hb).mp h
    exact ⟨⟨hcls, hlength⟩, hpos, Nat.le_refl w⟩
  · exact h

/-- A piece that starts at the fill and stays within the length leaves the feed fields in range (R97, R98). -/
theorem Entry.ok_fed {v : Live} {f : Feed} {n : Nat} (hb : e.body = .live v) (hfeed : v.feed = some f)
    (hfits : f.fill + n ≤ v.length) (h : e.ok w) : (e.fed f.fill (f.fill + n)).ok w := by
  obtain ⟨hcls, hlength, hfront, hfeeds, hconfirm⟩ := (Entry.ok_live hb).mp h
  obtain ⟨hback, hfill, hfresh⟩ := hfeeds f hfeed
  simp only [Entry.fed, hb, Entry.ok]
  refine ⟨hcls, hlength, hfront, fun g hg => ?_, hconfirm⟩
  simp only [hfeed, Option.map_some, Option.mem_some_iff] at hg
  subst hg
  unfold Feed.afterPiece
  split
  · exact ⟨hback, by dsimp only; omega, fun _ => rfl⟩
  · refine ⟨hback, by dsimp only; omega, fun hstill => ?_⟩
    dsimp only at hstill ⊢
    split at hstill
    · cases hstill
    · exact absurd (hfresh hstill) ‹_›

theorem Entry.ok_clip {w' : Nat} (hpos : 1 ≤ w') (h : e.ok w) : (e.clip w').ok w' := by
  unfold Entry.clip
  split
  · rename_i l r o hb
    obtain ⟨hl, hr, -⟩ := (Entry.ok_withdrawing hb).mp h
    exact ⟨hl, by omega, by omega⟩
  · rename_i hother
    unfold Entry.ok at h ⊢
    split at h
    · simpa only using h
    · simpa only using h
    · exact absurd ‹_› (hother _ _ _)
    · simpa only using h

theorem Entry.ok_atCycleStart (limit : Nat) (cycle : Word16) (h : e.ok w) : (e.atCycleStart limit cycle).ok w := by
  unfold Entry.atCycleStart
  split
  · rename_i v hb
    obtain ⟨hcls, hlength, hfront, hfeed, -⟩ := (Entry.ok_live hb).mp h
    refine ⟨hcls, hlength, hfront, hfeed, fun c hc => ?_⟩
    obtain ⟨c', -, rfl⟩ := Option.map_eq_some_iff.mp hc
    exact Nat.min_le_right _ 15
  · exact Entry.ok_sent false h

theorem Live.ok_atFrameStart {v : Live} (h : v.ok) : v.atFrameStart.ok := by
  unfold Live.atFrameStart
  split
  · rename_i f hf
    split
    · obtain ⟨hcls, hlength, hfront, hfeed, -⟩ := h
      obtain ⟨hback, hfill, -⟩ := hfeed f hf
      refine ⟨hcls, hlength, hback, fun g hg => ?_, nofun⟩
      obtain rfl := Option.some.inj hg
      exact ⟨hfront, by dsimp only; omega, nofun⟩
    · exact h
  · exact h

theorem Entry.ok_atFrameStart (h : e.ok w) : e.atFrameStart.ok w := by
  unfold Entry.atFrameStart
  split
  · rename_i v hb
    exact Live.ok_atFrameStart ((Entry.ok_live hb).mp h)
  · exact h

theorem Entry.ok_recordSent (version : Byte) (h : e.ok w) : (e.recordSent version).ok w := by
  unfold Entry.recordSent
  split
  · rename_i v hb
    obtain ⟨hcls, hlength, hfront, hfeed, -⟩ := (Entry.ok_live hb).mp h
    split
    · exact ⟨hcls, hlength, hfront, hfeed, nofun⟩
    · exact Entry.ok_sent true h
  · exact Entry.ok_sent true h

theorem Entry.ok_withdrawalSent (h : e.ok w) : e.withdrawalSent.ok w := by
  unfold Entry.withdrawalSent
  split
  · rename_i l r o hb
    obtain ⟨hl, hpos, hmax⟩ := (Entry.ok_withdrawing hb).mp h
    split
    · split
      · exact Entry.ok_sent true h
      · exact ⟨hl, rfl⟩
    · exact ⟨hl, by omega, by omega⟩
  · exact Entry.ok_sent true h

/-- The flags of any but a SPENT entry may be emptied. -/
theorem Entry.ok_collected (hspent : ¬e.isSpent = true) (h : e.ok w) : { e with flags := Flags.none }.ok w := by
  unfold Entry.ok at h ⊢
  split at h
  · simp only [*]
  · simpa only [*] using h
  · simpa only [*] using h
  · rename_i hb
    exact absurd (by simp [Entry.isSpent, hb]) hspent

end Entries

/-! ## The directory's entries after each act -/

theorem Directory.forall_mem_update {P : Entry → Prop} {d : Directory} {k : Key} {f : Entry → Entry} (h : ∀ e ∈ d, P e)
    (hf : ∀ e ∈ d, e.key = k → P (f e)) : ∀ e ∈ d.update k f, P e := by
  intro e he
  obtain ⟨hmem, -⟩ | ⟨x, hx, hxk, rfl⟩ := Directory.mem_update he
  · exact h e hmem
  · exact hf x hx hxk

theorem Directory.forall_mem_remove {P : Entry → Prop} {d : Directory} (h : ∀ e ∈ d, P e) (k : Key) : ∀ e ∈ d.remove k, P e :=
  fun e he => h e (Directory.mem_remove.mp he).1

section Acts

variable {s : State} {w : Nat}

theorem Directory.ok_opened {d : Directory} (h : ∀ e ∈ d, e.ok w) (key : Key) (n : SlotNo) : ∀ e ∈ d.opened key n, e.ok w := by
  unfold Directory.opened
  split
  · exact Directory.forall_mem_update h fun e he _ => Entry.ok_withSlot _ (h e he)
  · intro e he
    obtain rfl | he := Directory.mem_insert he
    · exact rfl
    · exact h e he

theorem Directory.ok_cancelled {d : Directory} (h : ∀ e ∈ d, e.ok w) (key : Key) : ∀ e ∈ d.cancelled key, e.ok w := by
  unfold Directory.cancelled
  split
  · split
    · exact Directory.forall_mem_remove h key
    · exact Directory.forall_mem_update h fun e he _ => Entry.ok_withSlot _ (h e he)
  · exact h

theorem Directory.ok_collected {d : Directory} (hs : d.sorted) (h : ∀ e ∈ d, e.ok w) {e : Entry} (he : e ∈ d) :
    ∀ x ∈ d.collected e, x.ok w := by
  unfold Directory.collected
  split
  · exact Directory.forall_mem_remove h e.key
  · rename_i hspent
    refine Directory.forall_mem_update h fun x hx hkey => ?_
    obtain rfl := Directory.eq_of_key hs he hx hkey
    exact Entry.ok_collected hspent (h x hx)

theorem Directory.ok_withdrawalSent {d : Directory} (h : ∀ e ∈ d, e.ok w) (key : Key) (spentNotice : Bool) :
    ∀ e ∈ d.withdrawalSent key spentNotice, e.ok w := by
  unfold Directory.withdrawalSent
  split
  · exact Directory.forall_mem_remove h key
  · exact Directory.forall_mem_update h fun e he _ => Entry.ok_withdrawalSent (h e he)

theorem Directory.ok_fed {d : Directory} (hs : d.sorted) (h : ∀ e ∈ d, e.ok w) {key : Key} {e : Entry} {v : Live} {f : Feed} {n : Nat}
    (he : d.entryOf key = some e) (hb : e.body = .live v) (hfeed : v.feed = some f) (hfits : f.fill + n ≤ v.length) :
    ∀ x ∈ d.update key (Entry.fed f.fill (f.fill + n)), x.ok w := by
  refine Directory.forall_mem_update h fun x hx hkey => ?_
  obtain rfl := Directory.eq_of_key hs (Directory.entryOf_mem he) hx (hkey.trans (Directory.entryOf_key he).symm)
  exact Entry.ok_fed hb hfeed hfits (h x hx)

theorem State.choose_entries (h : ∀ e ∈ s.dir, e.ok w) : ∀ e ∈ s.choose.dir, e.ok w := by
  obtain ⟨hc, -⟩ | ⟨source, x, -, hc, -⟩ | ⟨source, x, -, hc, -⟩ := s.choose_cases
  · rwa [hc, State.closeCycle_dir]
  · rw [hc]
    obtain hdir | hdir := s.startFrame_dir_cases source x
    · rwa [hdir]
    · rw [hdir]
      exact Directory.forall_mem_update h fun e he _ => Entry.ok_atFrameStart (h e he)
  · rwa [hc, State.overflowClose_dir]

end Acts

/-! ## The parameters (R156) -/

theorem Params.set_withdrawals {p q : Params} {code : Byte} {v : Nat} (h : p.set code v = some q) :
    (code = 0x04#8 → 1 ≤ q.withdrawals ∧ q.withdrawals ≤ 15) ∧ (code ≠ 0x04#8 → q.withdrawals = p.withdrawals) := by
  have hcode : code.toNat = 4 ↔ code = 0x04#8 := ⟨fun h => BitVec.eq_of_toNat_eq h, fun h => h ▸ rfl⟩
  rw [← hcode, Ne, ← hcode]
  unfold Params.set at h
  split at h
  case h_4 hc =>
    split at h
    · rename_i hv
      cases h
      exact ⟨fun _ => hv, fun hne => absurd hc hne⟩
    · cases h
  case h_12 => cases h
  all_goals
    split at h
    · rename_i hc _
      cases h
      exact ⟨fun h4 => absurd (hc.symm.trans h4) (by decide), fun _ => rfl⟩
    · cases h

@[simp] theorem State.choose_params (s : State) : s.choose.params = s.params := by
  obtain ⟨h, -⟩ | ⟨source, e, -, h, -⟩ | ⟨source, e, -, h, -⟩ := s.choose_cases <;> simp [h]

theorem Params.powerOn_ok : 1 ≤ Params.powerOn.withdrawals ∧ Params.powerOn.withdrawals ≤ 15 := by decide

theorem State.Move.keeps_params {s u : State} {i : Option Instr} (h : s.Move i u) (hs : s.paramsOk) : u.paramsOk := by
  cases h with
  | @configure code value p hrest hset =>
    obtain ⟨hw, hother⟩ := Params.set_withdrawals hset
    by_cases hcode : code = 0x04#8
    · exact hw hcode
    · have hsame := hother hcode
      exact ⟨hsame ▸ hs.1, hsame ▸ hs.2⟩
  | powerOnReset => exact Params.powerOn_ok
  | powerOnInitialisation => exact Params.powerOn_ok
  | _ => simpa [State.paramsOk, State.withStop] using hs

theorem State.entriesOk.of_same {s u : State} (h : s.entriesOk) (hdir : u.dir = s.dir) (hparams : u.params = s.params) :
    u.entriesOk := by
  unfold State.entriesOk
  rw [hdir, hparams]
  exact h

theorem State.Move.keeps_entries {s u : State} {i : Option Instr} (h : s.Move i u) (hd : s.dir.sorted) (hx : s.sessionsOk)
    (hp : s.paramsOk) (hs : s.entriesOk) : u.entriesOk := by
  cases h with
  | openSlot => exact Directory.ok_opened hs _ _
  | commit _ hn =>
    rw [State.entriesOk, State.wake_dir, State.wake_params]
    exact Directory.forall_mem_update hs fun e _ _ => Entry.ok_commit (hx _ _ hn) _ e
  | cancel => exact Directory.ok_cancelled hs _
  | retire => exact Directory.forall_mem_update hs fun e he _ => Entry.ok_retire hp.1 (hs e he)
  | feed he hbody hfeed hoffset hfits =>
    subst hoffset
    exact Directory.ok_fed hd hs he hbody hfeed hfits
  | notice he => exact Directory.ok_collected hd hs (State.noticed_mem he)
  | @configure code value p hrest hset =>
    obtain ⟨hw, hother⟩ := Params.set_withdrawals hset
    unfold State.entriesOk
    dsimp only
    split
    · intro e he
      obtain ⟨x, hmem, rfl⟩ := List.mem_map.mp he
      exact Entry.ok_clip (hw ‹_›).1 (hs x hmem)
    · rw [hother ‹_›]
      exact hs
  | clear => exact fun _ he => absurd he (List.not_mem_nil)
  | powerOnReset => exact fun _ he => absurd he (List.not_mem_nil)
  | powerOnInitialisation => exact fun _ he => absurd he (List.not_mem_nil)
  | cycleStarts =>
    intro e he
    obtain ⟨x, hmem, rfl⟩ := List.mem_map.mp he
    exact Entry.ok_atCycleStart _ _ (hs x hmem)
  | choice =>
    rw [State.entriesOk, State.choose_params, State.settleQueue_params, State.sendGap_params]
    exact State.choose_entries (by simpa [State.entriesOk] using hs)
  | recordEnds =>
    rw [State.entriesOk, State.afterFrame_dir, State.afterFrame_params]
    exact Directory.forall_mem_update hs fun e he _ => Entry.ok_recordSent _ (hs e he)
  | withdrawalEnds =>
    rw [State.entriesOk, State.afterFrame_dir, State.afterFrame_params]
    exact Directory.ok_withdrawalSent hs _ _
  | _ => exact hs.of_same (by simp) (by simp [State.withStop])

/-! ## The form of the pool's contents (log 10) -/

@[simp] theorem State.afterFrame_mem (s : State) : s.afterFrame.pool.mem = s.pool.mem := by
  unfold State.afterFrame; split <;> simp

@[simp] theorem State.clrFalls_mem (s : State) : s.clrFalls.pool.mem = s.pool.mem := by
  unfold State.clrFalls State.cutLine
  dsimp only
  repeat' split
  all_goals simp

theorem State.Move.keeps_memory {s u : State} {i : Option Instr} (h : s.Move i u) (hs : s.pool.mem.wf) : u.pool.mem.wf := by
  cases h with
  | write => exact writePayload_wf _ _ _ _ hs
  | feed => exact writePayload_wf _ _ _ _ hs
  | _ => simpa [State.openSlot, Pool.release, State.clearStore, State.powerOn, Pool.rebuilt] using hs

end Sys2Proof.Machine

namespace Sys2Proof.Proofs

open Sys2Proof.Machine

/-- Settles O55: each change an act makes of an entry keeps its promise; CONFIGURE of W clips the counts to the new range. -/
theorem stepKeepsTheEntries : Obligations.StepKeepsTheEntries := fun _ _ hd hx hp hs h =>
  step_keeps (Pre := fun s => s.directoryOk ∧ s.sessionsOk ∧ s.paramsOk ∧ s.entriesOk) (Post := fun s => s.paramsOk ∧ s.entriesOk)
    (fun _ _ _ _ hs => hs) (fun _ _ _ _ hs => hs)
    (fun _ _ _ ⟨hd, hx, hp, hs⟩ hm => ⟨hm.keeps_params hp, hm.keeps_entries hd.1 hx hp hs⟩) ⟨hd, hx, hp, hs⟩ h

/-- Settles O59: WRITE and FEED alone write the pool's contents, byte by byte in the canonical form. -/
theorem stepKeepsTheMemoryForm : Obligations.StepKeepsTheMemoryForm := fun _ _ hs h =>
  step_keeps (Pre := fun s => s.pool.mem.wf) (Post := fun s => s.pool.mem.wf) (fun _ _ _ _ hs => hs) (fun _ _ _ _ hs => hs)
    (fun _ _ _ hs hm => hm.keeps_memory hs) hs h

end Sys2Proof.Proofs

/-! The playout engine's promise (R70, R75, R76, R81, R85, R89, R90): the frame on air suits the phase, and every queued key and the key
on air have an entry that frames are sent for. -/

namespace Sys2Proof.Machine

/-! ## What the shared acts make of the engine and of the frame that waits -/

section Engine

variable (s : State)

theorem State.beginFrame_engine (f : AirFrame) : (s.beginFrame f).engine = { s.engine with onAir := some f } := rfl
theorem State.beginFrameAfter_engine (lead : List Byte) (f : AirFrame) :
    (s.beginFrameAfter lead f).engine = { s.engine with onAir := if lead = [] then some f else none } := by
  unfold State.beginFrameAfter; split <;> rfl
theorem State.beginFrameAfter_waiting (lead : List Byte) (f : AirFrame) :
    (s.beginFrameAfter lead f).encoder.waiting = if lead = [] then none else some { lead := lead, frame := f } := by
  unfold State.beginFrameAfter; split <;> rfl
@[simp] theorem Encoder.advance_waiting (m : Memory) (f : AirFrame) (e : Encoder) : (e.advance m f).waiting = e.waiting := by
  unfold Encoder.advance
  repeat' split
  all_goals rfl
/-- A fill byte to be finished leaves the frame that waits. -/
@[simp] theorem Encoder.fill_waiting (c : Prop) [Decidable c] (e : Encoder) (gap : Nat) :
    (if c then e else { e with gap := gap }).waiting = e.waiting := by
  split <;> rfl
@[simp] theorem State.expireKeyUp_waiting (ms : Nat) : (s.expireKeyUp ms).encoder.waiting = s.encoder.waiting := by
  unfold State.expireKeyUp; split <;> simp
@[simp] theorem State.expirePacing_waiting (ms : Nat) : (s.expirePacing ms).encoder.waiting = s.encoder.waiting := by
  unfold State.expirePacing; dsimp only; split <;> simp
@[simp] theorem State.withStop_engine (p : StopPoint) : (s.withStop p).engine = s.engine := rfl
@[simp] theorem State.withStop_encoder (p : StopPoint) : (s.withStop p).encoder = s.encoder := rfl

/-- A byte-time leaves the engine and the frame that waits, or starts the frame that waits, or shortens the bytes before it. -/
theorem State.passByte_cases :
    (s.passByte.engine = s.engine ∧ s.passByte.encoder.waiting = s.encoder.waiting) ∨
      ∃ w, s.engine.onAir = none ∧ s.encoder.waiting = some w ∧ s.passByte.engine = (s.finishLead w).engine ∧
        s.passByte.encoder = (s.finishLead w).encoder := by
  unfold State.passByte
  split
  · exact .inl ⟨rfl, Encoder.advance_waiting _ _ _⟩
  · split
    · rename_i hair _ w hw
      exact .inr ⟨w, hair, hw, rfl, rfl⟩
    · exact .inl ⟨rfl, rfl⟩

end Engine

/-! ## The engine's promise -/

theorem State.cycleOpen_eq_false {s : State} : s.cycleOpen = false ↔ s.engine.phase = .between := by
  simp [State.cycleOpen]

theorem State.cycleOpen_eq_true {s : State} : s.cycleOpen = true ↔ s.engine.phase ≠ .between := by
  simp [State.cycleOpen]

theorem State.EngineOk.of_same {s u : State} (h : s.EngineOk) (heng : u.engine = s.engine)
    (hw : u.encoder.waiting = s.encoder.waiting) : u.EngineOk := by
  obtain ⟨hframe, hcarry, hwalk, hqueue, hwaiting⟩ := h
  refine ⟨?_, ?_, ?_, ?_, ?_⟩
  · simpa only [State.cycleOpen, heng] using hframe
  · rwa [heng]
  · rwa [heng]
  · rwa [heng]
  · rwa [heng, hw]

/-- With no frame on air and none waiting, the phase, the cursor and the queue are left to suit each other. -/
theorem State.EngineOk.of_still {s u : State} (h : s.EngineOk) (hair : u.engine.onAir = none) (hw : u.encoder.waiting = none)
    (hphase : u.engine.phase = s.engine.phase) (hcursor : u.engine.cursor = s.engine.cursor)
    (hqueue : u.engine.queue = s.engine.queue) : u.EngineOk where
  frame f hf := by simp [hair] at hf
  carry hp := hcursor ▸ h.carry (hphase ▸ hp)
  walk hp := hqueue ▸ h.walk (hphase ▸ hp)
  queue := hqueue ▸ h.queue
  waiting w hw' := by simp [hw] at hw'

/-- The frame on air has left the line; one that waits goes on waiting. -/
theorem State.EngineOk.of_completed {s u : State} (h : s.EngineOk) (hair : u.engine.onAir = none)
    (hw : u.encoder.waiting = s.encoder.waiting) (hphase : u.engine.phase = s.engine.phase)
    (hcursor : u.engine.cursor = s.engine.cursor) (hqueue : u.engine.queue = s.engine.queue) : u.EngineOk where
  frame f hf := by simp [hair] at hf
  carry hp := hcursor ▸ h.carry (hphase ▸ hp)
  walk hp := hqueue ▸ h.walk (hphase ▸ hp)
  queue := hqueue ▸ h.queue
  waiting w hw' := by
    obtain ⟨hlead, hframe, -, hbetween⟩ := h.waiting w (hw ▸ hw')
    exact ⟨hlead, hframe, hair, hphase.trans hbetween⟩

/-- BETWEEN cycles a Cycle End or an Abort may start, at once or behind other bytes. -/
theorem State.EngineOk.of_beginFrameAfter {s : State} (hphase : s.engine.phase = .between) (hqueue : s.engine.queue.Nodup)
    (lead : List Byte) {f : AirFrame} (hf : f.inCycle = false) : (s.beginFrameAfter lead f).EngineOk where
  frame g hg := by
    simp only [State.beginFrameAfter_engine] at hg
    split at hg
    · cases hg
      simpa [State.cycleOpen, hphase] using hf
    · cases hg
  carry hp := by simp [hphase] at hp
  walk hp := by simp [hphase] at hp
  queue := by simpa [State.beginFrameAfter_engine] using hqueue
  waiting w hw := by
    rw [State.beginFrameAfter_waiting] at hw
    split at hw
    · cases hw
    · rename_i hlead
      cases hw
      exact ⟨hlead, hf, by simp [State.beginFrameAfter_engine, hlead], by simpa using hphase⟩

/-! ### The queue holds no key twice (R85, R88) -/

theorem queueWithAbandoned_nodup {queue : List Key} (h : queue.Nodup) (k : Option Key) : (queueWithAbandoned queue k).Nodup := by
  cases k with
  | none => exact h
  | some k => exact List.nodup_cons.mpr ⟨by simp, h.filter _⟩

theorem State.walkCandidates_keys_nodup {s : State} (hs : s.dir.sorted) : (s.walkCandidates.map Entry.key).Nodup := by
  have hsorted : (s.walkCandidates.map Entry.key).Pairwise (· < ·) := List.pairwise_map.mpr (hs.filter _)
  exact hsorted.imp fun hlt => BitVec.ne_of_lt hlt

theorem State.queueWithOwed_nodup {s : State} (hs : s.dir.sorted) {queue : List Key} (h : queue.Nodup) :
    (s.queueWithOwed queue).Nodup := by
  refine List.nodup_append.mpr ⟨h, (State.walkCandidates_keys_nodup hs).filter _, fun a ha b hb hab => ?_⟩
  simp only [List.mem_filter, Bool.not_eq_true', List.contains_eq_mem, decide_eq_false_iff_not] at hb
  exact hb.2 (hab ▸ ha)

theorem State.earlyEnd_queue_nodup {s : State} (hs : s.dir.sorted) (h : s.engine.queue.Nodup) : s.earlyEnd.engine.queue.Nodup :=
  State.queueWithOwed_nodup hs (queueWithAbandoned_nodup h _)

theorem State.truncatedEnd_engineOk {s : State} (hs : s.dir.sorted) (h : s.engine.queue.Nodup) (lead : List Byte) :
    (s.truncatedEnd lead).EngineOk :=
  State.EngineOk.of_beginFrameAfter (s := s.earlyEnd) rfl (State.earlyEnd_queue_nodup hs h) lead rfl

/-- After a completed frame: the gap, or the truncated Cycle End. -/
theorem State.afterFrame_engineOk {s : State} (h : s.EngineOk) (hs : s.dir.sorted) : s.afterFrame.EngineOk := by
  unfold State.afterFrame
  split
  · exact State.truncatedEnd_engineOk (s := s.endFrame 0) hs h.queue []
  · exact h.of_still rfl rfl rfl rfl rfl

/-! ### The frame choice (R74 to R84) -/

/-- What the drops of a choice leave (R74, R75). -/
theorem State.settleQueue_cases (s : State) :
    (s.engine.phase ≠ .carry ∧ s.settleQueue = s) ∨
      (s.engine.phase = .carry ∧ s.settleQueue = { s with engine := { s.engine with queue := [], phase := .walk, cursor := none } } ∧
        ∀ k ∈ s.engine.queue, s.dir.servable k = false) ∨
      ∃ dropped k rest, s.engine.phase = .carry ∧ s.engine.queue = dropped ++ k :: rest ∧
        (∀ x ∈ dropped, s.dir.servable x = false) ∧ s.dir.servable k = true ∧
        s.settleQueue = { s with engine := { s.engine with queue := k :: rest } } := by
  unfold State.settleQueue
  by_cases hphase : s.engine.phase = .carry
  · rw [if_pos hphase]
    have hsplit := List.takeWhile_append_dropWhile (p := fun k => !s.dir.servable k) (l := s.engine.queue)
    have hdropped : ∀ x ∈ s.engine.queue.takeWhile (fun k => !s.dir.servable k), s.dir.servable x = false := fun x hx => by
      simpa using List.mem_takeWhile_imp hx
    cases hrest : s.engine.queue.dropWhile (fun k => !s.dir.servable k) with
    | nil =>
      rw [hrest, List.append_nil] at hsplit
      exact .inr (.inl ⟨hphase, rfl, hsplit ▸ hdropped⟩)
    | cons k rest =>
      rw [hrest] at hsplit
      have hhead := List.head_dropWhile_not (p := fun k => !s.dir.servable k) (l := s.engine.queue) (by simp [hrest])
      refine .inr (.inr ⟨_, k, rest, hphase, hsplit.symm, hdropped, ?_, rfl⟩)
      simpa [hrest] using hhead
  · rw [if_neg hphase]
    exact .inl ⟨hphase, rfl⟩

theorem State.settleQueue_engineOk {s : State} (h : s.EngineOk) (hair : s.engine.onAir = none) (hopen : s.cycleOpen = true) :
    s.settleQueue.EngineOk := by
  have hwaiting (w : Waiting) (hw : s.encoder.waiting = some w) : False := by
    obtain ⟨-, -, -, hbetween⟩ := h.waiting w hw
    simp [State.cycleOpen, hbetween] at hopen
  obtain ⟨-, hsame⟩ | ⟨hphase, hsame, -⟩ | ⟨dropped, k, rest, hphase, hqueue, -, -, hsame⟩ := s.settleQueue_cases
  · rwa [hsame]
  · rw [hsame]
    exact ⟨fun f hf => by simp [hair] at hf, fun _ => rfl, fun _ => rfl, List.nodup_nil, fun w hw => (hwaiting w hw).elim⟩
  · rw [hsame]
    refine ⟨fun f hf => by simp [hair] at hf, h.carry, fun hp => ?_, ?_, fun w hw => (hwaiting w hw).elim⟩
    · simp [hphase] at hp
    · have hnodup := h.queue
      rw [hqueue] at hnodup
      exact hnodup.of_append_right

@[simp] theorem State.settleQueue_onAir (s : State) : s.settleQueue.engine.onAir = s.engine.onAir := by
  obtain ⟨-, hsame⟩ | ⟨-, hsame, -⟩ | ⟨_, _, _, -, -, -, -, hsame⟩ := s.settleQueue_cases <;> rw [hsame]

theorem State.settleQueue_cycleOpen (s : State) (h : s.cycleOpen = true) : s.settleQueue.cycleOpen = true := by
  obtain ⟨-, hsame⟩ | ⟨-, hsame, -⟩ | ⟨_, _, _, -, -, -, -, hsame⟩ := s.settleQueue_cases <;> rw [hsame]
  · exact h
  · rfl
  · exact h

/-- The candidate comes from the phase it is found in: the head of the queue in CARRY, the first WALK candidate in WALK (R75, R76). -/
theorem State.candidate_cases {s : State} {source : Source} {e : Entry} (h : s.candidate = some (source, e)) :
    (s.engine.phase = .carry ∧ source = .carry ∧ ∃ rest, s.engine.queue = e.key :: rest ∧ s.dir.entryOf e.key = some e) ∨
      (s.engine.phase = .walk ∧ source = .walk ∧ ∃ rest, s.walkCandidates = e :: rest) := by
  unfold State.candidate at h
  cases hphase : s.engine.phase with
  | between => simp [hphase] at h
  | carry =>
    simp only [hphase, Option.map_eq_some_iff, Option.bind_eq_some_iff, Prod.mk.injEq] at h
    obtain ⟨x, ⟨k, hk, hx⟩, hsource, rfl⟩ := h
    obtain ⟨rest, hrest⟩ := List.head?_eq_some_iff.mp hk
    obtain rfl := Directory.entryOf_key hx
    exact .inl ⟨rfl, hsource.symm, rest, hrest, hx⟩
  | walk =>
    simp only [hphase, Option.map_eq_some_iff, Prod.mk.injEq] at h
    obtain ⟨x, hx, hsource, rfl⟩ := h
    obtain ⟨rest, hrest⟩ := List.head?_eq_some_iff.mp hx
    exact .inr ⟨rfl, hsource.symm, rest, hrest⟩

theorem Entry.frame_inCycle {source : Source} {e : Entry} {f : AirFrame} (h : e.frame source = some f) :
    f.inCycle = true ∧ f.key = some e.key := by
  unfold Entry.frame at h
  split at h
  · cases h
    exact ⟨rfl, rfl⟩
  · cases h
    exact ⟨rfl, rfl⟩
  · cases h
  · cases h

theorem State.startFrame_engineOk {s : State} (h : s.EngineOk) (hopen : s.cycleOpen = true) {source : Source} {e : Entry}
    (hc : s.candidate = some (source, e)) : (s.startFrame source e).EngineOk := by
  unfold State.startFrame
  split
  · rename_i f hf
    obtain ⟨hphase, rfl, rest, hqueue, -⟩ | ⟨hphase, rfl, -⟩ := State.candidate_cases hc
    · refine ⟨fun g hg => ?_, h.carry, fun hp => ?_, ?_, nofun⟩
      · cases hg
        exact (Entry.frame_inCycle hf).1.trans hopen.symm
      · exact absurd (hphase.symm.trans hp) nofun
      · exact h.queue.sublist (List.tail_sublist _)
    · refine ⟨fun g hg => ?_, fun hp => ?_, h.walk, h.queue, nofun⟩
      · cases hg
        exact (Entry.frame_inCycle hf).1.trans hopen.symm
      · exact absurd (hphase.symm.trans hp) nofun
  · exact h

theorem State.closeCycle_engineOk {s : State} (hqueue : s.engine.queue.Nodup) : s.closeCycle.EngineOk where
  frame f hf := by
    cases hf
    rfl
  carry := nofun
  walk := nofun
  queue := hqueue
  waiting := nofun

theorem State.choose_engineOk {s : State} (h : s.EngineOk) (hs : s.dir.sorted) (hopen : s.cycleOpen = true) : s.choose.EngineOk := by
  obtain ⟨hc, -⟩ | ⟨source, e, hcand, hc, -⟩ | ⟨source, e, -, hc, -⟩ := s.choose_cases
  · rw [hc]
    exact State.closeCycle_engineOk h.queue
  · rw [hc]
    exact State.startFrame_engineOk h hopen hcand
  · rw [hc]
    exact State.closeCycle_engineOk (State.queueWithOwed_nodup hs h.queue)

theorem State.choiceAllowed_iff (s : State) :
    s.choiceAllowed = true ↔ s.cycleOpen = true ∧ s.link.state = .running ∧ s.engine.onAir = none := by
  simp [State.choiceAllowed, and_assoc]

theorem State.passByte_engineOk {s : State} (h : s.EngineOk) : s.passByte.EngineOk := by
  obtain ⟨heng, hw⟩ | ⟨w, hair, hw, heng, henc⟩ := s.passByte_cases
  · exact h.of_same heng hw
  · obtain ⟨-, hframe, -, hphase⟩ := h.waiting w hw
    exact (State.EngineOk.of_beginFrameAfter (s := { s with line := w.lead.take 1 }) hphase h.queue w.lead.tail hframe).of_same
      heng (congrArg Encoder.waiting henc)

theorem byteTime_engineOk {s : State} (h : s.EngineOk) : (byteTime s).EngineOk := by
  unfold byteTime
  split
  · exact (State.passByte_engineOk h).of_same rfl rfl
  · exact h

theorem Engine.powerOn_engineOk {u : State} (cycle : Word16) (heng : u.engine = { Engine.powerOn with cycle := cycle })
    (hw : u.encoder.waiting = none) : u.EngineOk where
  frame f hf := by simp [heng, Engine.powerOn] at hf
  carry hp := by simp [heng, Engine.powerOn] at hp
  walk hp := by simp [heng, Engine.powerOn] at hp
  queue := by simp [heng, Engine.powerOn]
  waiting w h := by simp [hw] at h

theorem State.clrFalls_engineOk {s : State} (h : s.EngineOk) (hs : s.dir.sorted) : s.clrFalls.EngineOk := by
  unfold State.clrFalls
  dsimp only
  split
  · unfold State.cutLine
    split
    · exact ⟨nofun, nofun, nofun, State.earlyEnd_queue_nodup (s := { s with link := { s.link with clr := false } }) hs h.queue, nofun⟩
    · split
      · exact h.of_still rfl rfl rfl rfl rfl
      · exact h.of_still rfl rfl rfl rfl rfl
  · exact h.of_same rfl rfl

theorem State.enterKeying_waiting (s : State) : s.enterKeying.encoder.waiting = none := by
  simp [Encoder.idle]

theorem State.wake_waiting (s : State) : s.wake.encoder.waiting = s.encoder.waiting ∨ s.wake.encoder.waiting = none := by
  unfold State.wake
  split
  · exact .inr s.enterKeying_waiting
  · exact .inl rfl

/-- The engine and the frame that waits do not look at the generation. -/
theorem State.EngineOk.of_generation {s u : State} (h : s.EngineOk) (g : Word16)
    (heng : u.engine = { s.engine with generation := g }) (hw : u.encoder.waiting = s.encoder.waiting ∨ u.encoder.waiting = none) :
    u.EngineOk where
  frame f hf := by
    have hframe := h.frame f (by simpa [heng] using hf)
    rwa [State.cycleOpen, heng]
  carry hp := by simpa [heng] using h.carry (by simpa [heng] using hp)
  walk hp := by simpa [heng] using h.walk (by simpa [heng] using hp)
  queue := by simpa [heng] using h.queue
  waiting w hw' := by
    obtain hsame | hnone := hw
    · simpa [heng] using h.waiting w (hsame ▸ hw')
    · simp [hnone] at hw'

theorem State.Move.keeps_engine {s u : State} {i : Option Instr} (hm : s.Move i u) (hs : s.dir.sorted) (h : s.EngineOk) :
    u.EngineOk := by
  cases hm with
  | byteTime => exact byteTime_engineOk h
  | cycPulseEnds => exact (byteTime_engineOk h).of_same rfl rfl
  | powerOnReset => exact Engine.powerOn_engineOk 0#16 rfl rfl
  | powerOnInitialisation => exact Engine.powerOn_engineOk 0#16 rfl rfl
  | clear => exact Engine.powerOn_engineOk _ rfl rfl
  | stopHalts => exact h.of_generation s.engine.generation rfl (.inr rfl)
  | stopAborts =>
    exact State.EngineOk.of_beginFrameAfter (s := (s.withStop .immediate).earlyEnd) rfl
      (State.earlyEnd_queue_nodup (s := s.withStop .immediate) hs h.queue) _ rfl
  | stopAbortsEnd _ _ hopen =>
    exact State.EngineOk.of_beginFrameAfter (s := { s.withStop .immediate with engine := { s.engine with truncPrev := true } })
      (State.cycleOpen_eq_false.mp hopen) h.queue _ rfl
  | stopTruncates => exact State.truncatedEnd_engineOk (s := s.withStop .frame) hs h.queue _
  | stopHaltsNow => exact h.of_still rfl rfl rfl rfl rfl
  | @commit slot n x confirm e =>
    exact h.of_generation (s.engine.generation + 1#16) (State.wake_engine _) (State.wake_waiting (s.install n x confirm e))
  | retire => exact h.of_generation _ rfl (.inl rfl)
  | start => exact h.of_generation s.engine.generation (State.enterKeying_engine s) (.inr s.enterKeying_waiting)
  | clearWaitExpires => exact h.of_still rfl rfl rfl rfl rfl
  | clrFalls => exact State.clrFalls_engineOk h hs
  | cycleStarts =>
    refine ⟨fun f hf => ?_, fun _ => rfl, nofun, h.queue, nofun⟩
    cases hf
    rfl
  | choiceEnds => exact State.truncatedEnd_engineOk (s := s.sendGap) hs h.queue []
  | choice hallowed =>
    obtain ⟨hopen, -, hair⟩ := s.choiceAllowed_iff.mp hallowed
    have hsend : s.sendGap.EngineOk := h.of_same rfl rfl
    exact State.choose_engineOk (State.settleQueue_engineOk hsend hair hopen) (by simpa using hs)
      (State.settleQueue_cycleOpen s.sendGap hopen)
  | cycleStartEnds => exact State.afterFrame_engineOk (h.of_same rfl rfl) hs
  | recordEnds =>
    exact State.afterFrame_engineOk (s := s.sendToFrameEnd.recordDone _) (h.of_completed rfl rfl rfl rfl rfl)
      (Directory.update_sorted hs _ _ (Entry.recordSent_key _))
  | withdrawalEnds =>
    refine State.afterFrame_engineOk (s := s.sendToFrameEnd.withdrawalDone _) (h.of_completed rfl rfl rfl rfl rfl) ?_
    exact List.pairwise_map.mp ((List.pairwise_map.mpr hs).sublist (Directory.withdrawalSent_keys_sublist _ _ _))
  | cycleEndHalts => exact h.of_still rfl rfl rfl rfl rfl
  | cycleEndSleeps => exact h.of_still rfl rfl rfl rfl rfl
  | cycleEndContinues => exact h.of_still rfl rfl rfl rfl rfl
  | abortEnds => exact h.of_still rfl rfl rfl rfl rfl
  | _ => exact h.of_same (by simp) (by simp)

end Sys2Proof.Machine

/-! The carry-over queue's promise: every queued key and the key on air have an entry that frames are sent for, and the key on air is not
queued (R81, R85). -/

namespace Sys2Proof.Machine

/-! ## Keys with an entry on the carousel -/

/-- The key's entry is one that frames are sent for: LIVE or WITHDRAWING (R75). -/
def Directory.Carries (d : Directory) (k : Key) : Prop := (d.entryOf k).any (fun e => e.body.onCarousel) = true

theorem Directory.carries_iff {d : Directory} {k : Key} : d.Carries k ↔ ∃ e, d.entryOf k = some e ∧ e.body.onCarousel = true := by
  simp [Directory.Carries, Option.any_eq_true]

theorem Directory.carries_of_mem {d : Directory} (hs : d.sorted) {e : Entry} (he : e ∈ d) (hb : e.body.onCarousel = true) :
    d.Carries e.key :=
  Directory.carries_iff.mpr ⟨e, Directory.entryOf_of_mem hs he, hb⟩

/-- A change that leaves every entry of the carousel on it takes no key away. -/
theorem Directory.Carries.update {d : Directory} {k k' : Key} (h : d.Carries k) {f : Entry → Entry} (hkey : ∀ e, (f e).key = e.key)
    (hb : ∀ e, e.body.onCarousel = true → (f e).body.onCarousel = true) : (d.update k' f).Carries k := by
  obtain ⟨e, he, hon⟩ := Directory.carries_iff.mp h
  by_cases hk : k = k'
  · subst hk
    exact Directory.carries_iff.mpr ⟨f e, by rw [Directory.entryOf_update_same d k f hkey, he]; rfl, hb e hon⟩
  · exact Directory.carries_iff.mpr ⟨e, (Directory.entryOf_update_other d f hkey hk).trans he, hon⟩

theorem Directory.entryOf_map {f : Entry → Entry} (hkey : ∀ e, (f e).key = e.key) (d : Directory) (k : Key) :
    Directory.entryOf (d.map f) k = (d.entryOf k).map f := by
  simp [Directory.entryOf, List.find?_map, hkey]

theorem Directory.Carries.map {d : Directory} {k : Key} (h : d.Carries k) {f : Entry → Entry} (hkey : ∀ e, (f e).key = e.key)
    (hb : ∀ e, e.body.onCarousel = true → (f e).body.onCarousel = true) : Directory.Carries (d.map f) k := by
  obtain ⟨e, he, hon⟩ := Directory.carries_iff.mp h
  exact Directory.carries_iff.mpr ⟨f e, by rw [Directory.entryOf_map hkey, he]; rfl, hb e hon⟩

/-- Removing an entry that no frame is sent for takes no key away. -/
theorem Directory.Carries.remove {d : Directory} (hs : d.sorted) {k : Key} (h : d.Carries k) {e : Entry} (he : e ∈ d)
    (hb : e.body.onCarousel = false) : (d.remove e.key).Carries k := by
  obtain ⟨x, hx, hon⟩ := Directory.carries_iff.mp h
  have hk : k ≠ e.key := fun hke => by
    obtain rfl := Directory.eq_of_key hs he (Directory.entryOf_mem hx) ((Directory.entryOf_key hx).trans hke)
    simp [hb] at hon
  exact Directory.carries_iff.mpr ⟨x, (Directory.entryOf_remove_other d hk).trans hx, hon⟩

section OnCarousel

variable {e : Entry}

theorem Entry.withSlot_onCarousel (o : Option SlotNo) : (e.withSlot o).body.onCarousel = e.body.onCarousel := by
  simp only [Entry.withSlot]
  cases e.body <;> rfl

theorem Entry.retire_onCarousel (w : Nat) (h : e.body.onCarousel = true) : (e.retire w).body.onCarousel = true := by
  unfold Entry.retire
  split
  · rfl
  · exact h

theorem Entry.fed_onCarousel (offset fill : Nat) (h : e.body.onCarousel = true) : (e.fed offset fill).body.onCarousel = true := by
  unfold Entry.fed
  split
  · rfl
  · exact h

theorem Entry.clip_onCarousel (w : Nat) (h : e.body.onCarousel = true) : (e.clip w).body.onCarousel = true := by
  unfold Entry.clip
  split
  · rfl
  · exact h

theorem Entry.atCycleStart_onCarousel (limit : Nat) (cycle : Word16) (h : e.body.onCarousel = true) :
    (e.atCycleStart limit cycle).body.onCarousel = true := by
  unfold Entry.atCycleStart
  split
  · rfl
  · exact h

theorem Entry.atFrameStart_onCarousel (h : e.body.onCarousel = true) : e.atFrameStart.body.onCarousel = true := by
  unfold Entry.atFrameStart
  split
  · rfl
  · exact h

theorem Entry.recordSent_onCarousel (version : Byte) (h : e.body.onCarousel = true) :
    (e.recordSent version).body.onCarousel = true := by
  unfold Entry.recordSent
  split
  · split
    · rfl
    · exact h
  · exact h

end OnCarousel

theorem Directory.Carries.opened {d : Directory} {k : Key} (h : d.Carries k) (key : Key) (n : SlotNo) : (d.opened key n).Carries k := by
  unfold Directory.opened
  split
  · exact h.update (Entry.withSlot_key _) fun e he => (Entry.withSlot_onCarousel _).trans he
  · rename_i hnone
    obtain ⟨e, he, hon⟩ := Directory.carries_iff.mp h
    have hk : k ≠ (stagedEntry key n).key := fun hk => by
      rw [hk] at he
      exact absurd (hnone.symm.trans he) nofun
    exact Directory.carries_iff.mpr ⟨e, (Directory.entryOf_insert_other d _ hk).trans he, hon⟩

theorem Directory.Carries.cancelled {d : Directory} (hs : d.sorted) {k : Key} (h : d.Carries k) (key : Key) :
    (d.cancelled key).Carries k := by
  unfold Directory.cancelled
  split
  · rename_i e he
    obtain rfl := Directory.entryOf_key he
    split
    · rename_i hstaged
      refine h.remove hs (Directory.entryOf_mem he) ?_
      cases hb : e.body with
      | staged n => rfl
      | _ => simp [Entry.isStaged, hb] at hstaged
    · exact h.update (Entry.withSlot_key _) fun e he => (Entry.withSlot_onCarousel _).trans he
  · exact h

theorem Directory.Carries.collected {d : Directory} (hs : d.sorted) {k : Key} (h : d.Carries k) {e : Entry} (he : e ∈ d) :
    (d.collected e).Carries k := by
  unfold Directory.collected
  split
  · rename_i hspent
    refine h.remove hs he ?_
    cases hb : e.body with
    | spent l => rfl
    | _ => simp [Entry.isSpent, hb] at hspent
  · exact h.update (f := fun x => { x with flags := Flags.none }) (fun _ => rfl) fun _ h => h

/-- The end of a Withdrawal frame touches its own key's entry alone (R16). -/
theorem Directory.entryOf_withdrawalSent_other (d : Directory) {key k : Key} (spentNotice : Bool) (hk : k ≠ key) :
    (d.withdrawalSent key spentNotice).entryOf k = d.entryOf k := by
  unfold Directory.withdrawalSent
  split
  · exact Directory.entryOf_remove_other d hk
  · exact Directory.entryOf_update_other d _ Entry.withdrawalSent_key hk

/-! ## The queue's promise -/

/-- The promise looks at the queue, the key on air and the directory. -/
theorem State.QueueOk.of_carries {s u : State} (h : s.QueueOk) (hqueue : u.engine.queue = s.engine.queue)
    (hair : u.engine.onAir.bind AirFrame.key = none ∨ u.engine.onAir = s.engine.onAir)
    (hdir : ∀ k, s.dir.Carries k → u.dir.Carries k) : u.QueueOk where
  known k hk := hdir k (h.known k (hqueue ▸ hk))
  onAir k hk := by
    obtain hnone | hsame := hair
    · simp [hnone] at hk
    · obtain ⟨hknown, hnot⟩ := h.onAir k (hsame ▸ hk)
      exact ⟨hdir k hknown, hqueue ▸ hnot⟩

/-- With no keyed frame on air, a queue of known keys keeps the promise. -/
theorem State.QueueOk.of_queue {u : State} (hair : u.engine.onAir.bind AirFrame.key = none)
    (h : ∀ k ∈ u.engine.queue, u.dir.Carries k) : u.QueueOk where
  known := h
  onAir k hk := by simp [hair] at hk

theorem Entry.due_onCarousel {cycle : Word16} {e : Entry} (h : e.due cycle = true) : e.body.onCarousel = true := by
  unfold Entry.due at h
  cases hb : e.body with
  | live v => rfl
  | withdrawing l r o => rfl
  | staged n => simp [hb] at h
  | spent l => simp [hb] at h

theorem State.mem_walkCandidates {s : State} {e : Entry} (h : e ∈ s.walkCandidates) :
    e ∈ s.dir ∧ e.due s.engine.cycle = true ∧ e.sent = false ∧ e.key ∉ s.engine.served ∧
      aboveCursor s.engine.walkFrom e.key = true := by
  obtain ⟨hmem, hc⟩ := List.mem_filter.mp h
  simp only [Engine.walkCandidate, Bool.and_eq_true, Bool.not_eq_true', List.contains_eq_mem, decide_eq_false_iff_not] at hc
  obtain ⟨⟨⟨habove, hdue⟩, hsent⟩, hserved⟩ := hc
  exact ⟨hmem, hdue, hsent, hserved, habove⟩

theorem State.walkCandidate_carries {s : State} (hs : s.dir.sorted) {e : Entry} (h : e ∈ s.walkCandidates) : s.dir.Carries e.key := by
  obtain ⟨hmem, hdue, -⟩ := State.mem_walkCandidates h
  exact Directory.carries_of_mem hs hmem (Entry.due_onCarousel hdue)

theorem State.queueWithOwed_carries {s : State} (hs : s.dir.sorted) {queue : List Key} (h : ∀ k ∈ queue, s.dir.Carries k) :
    ∀ k ∈ s.queueWithOwed queue, s.dir.Carries k := by
  intro k hk
  obtain hk | hk := List.mem_append.mp hk
  · exact h k hk
  · obtain ⟨e, he, rfl⟩ := List.mem_map.mp (List.mem_filter.mp hk).1
    exact State.walkCandidate_carries hs he

/-- The early end queues the abandoned key, which was on air, and owed keys (R88). -/
theorem State.earlyEnd_carries {s : State} (hs : s.dir.sorted) (h : s.QueueOk) : ∀ k ∈ s.earlyEnd.engine.queue, s.dir.Carries k := by
  refine State.queueWithOwed_carries hs fun k hk => ?_
  cases habandoned : s.engine.onAir.bind AirFrame.key with
  | none =>
    rw [habandoned] at hk
    exact h.known k hk
  | some a =>
    rw [habandoned] at hk
    obtain rfl | hk := List.mem_cons.mp hk
    · exact (h.onAir k habandoned).1
    · exact h.known k (List.mem_filter.mp hk).1

/-- A frame without a key starts, at once or behind other bytes. -/
theorem State.beginFrameAfter_queueOk {s : State} (h : ∀ k ∈ s.engine.queue, s.dir.Carries k) (lead : List Byte) {f : AirFrame}
    (hf : f.key = none) : (s.beginFrameAfter lead f).QueueOk := by
  refine State.QueueOk.of_queue ?_ ?_
  · rw [State.beginFrameAfter_onAir]
    split <;> simp [hf]
  · simpa [State.beginFrameAfter_engine] using h

theorem State.afterFrame_queueOk {s : State} (hs : s.dir.sorted) (h : ∀ k ∈ s.engine.queue, s.dir.Carries k) : s.afterFrame.QueueOk := by
  have hended (gap : Nat) : (s.endFrame gap).QueueOk := State.QueueOk.of_queue rfl h
  unfold State.afterFrame
  split
  · exact State.beginFrameAfter_queueOk (State.earlyEnd_carries (s := s.endFrame 0) hs (hended 0)) [] rfl
  · exact hended _

theorem State.settleQueue_carries {s : State} (h : ∀ k ∈ s.engine.queue, s.dir.Carries k) :
    ∀ k ∈ s.settleQueue.engine.queue, s.dir.Carries k := by
  obtain ⟨-, hsame⟩ | ⟨-, hsame, -⟩ | ⟨dropped, k, rest, -, hqueue, -, -, hsame⟩ := s.settleQueue_cases
  · rwa [hsame]
  · rw [hsame]
    exact nofun
  · rw [hsame]
    exact fun x hx => h x (hqueue ▸ List.mem_append_right dropped hx)

/-- The key of the frame that starts leaves the queue, or comes from WALK, whose queue is empty (R75, R76, R80). -/
theorem State.startFrame_queueOk {s : State} (hs : s.dir.sorted) (he : s.EngineOk) (h : ∀ k ∈ s.engine.queue, s.dir.Carries k)
    (hair : s.engine.onAir = none) {source : Source} {e : Entry} (hc : s.candidate = some (source, e)) :
    (s.startFrame source e).QueueOk := by
  have hstart (k : Key) (hk : s.dir.Carries k) : (s.dir.update e.key Entry.atFrameStart).Carries k :=
    hk.update Entry.atFrameStart_key fun _ => Entry.atFrameStart_onCarousel
  unfold State.startFrame
  split
  · rename_i f hf
    have hkey : f.key = some e.key := (Entry.frame_inCycle hf).2
    obtain ⟨-, rfl, rest, hqueue, -⟩ | ⟨hphase, rfl, rest, hwalk⟩ := State.candidate_cases hc
    · have hnodup := he.queue
      rw [hqueue] at hnodup
      have htail : s.engine.queue.tail = rest := by simp [hqueue]
      refine ⟨fun k hk => hstart k (h k (List.mem_of_mem_tail hk)), fun k hk => ?_⟩
      obtain rfl : e.key = k := Option.some.inj (hkey.symm.trans hk)
      exact ⟨hstart _ (h _ (by simp [hqueue])), fun hmem => (List.nodup_cons.mp hnodup).1 (htail ▸ hmem)⟩
    · refine ⟨fun k hk => hstart k (h k hk), fun k hk => ?_⟩
      obtain rfl : e.key = k := Option.some.inj (hkey.symm.trans hk)
      refine ⟨hstart _ (State.walkCandidate_carries hs (by simp [hwalk])), fun hmem => ?_⟩
      have hempty := he.walk hphase
      simp only [State.beginFrame_engine, Engine.charged, hempty] at hmem
      cases hmem
  · exact State.QueueOk.of_queue (by simp [hair]) h

theorem State.choose_queueOk {s : State} (hs : s.dir.sorted) (he : s.EngineOk) (h : ∀ k ∈ s.engine.queue, s.dir.Carries k)
    (hair : s.engine.onAir = none) : s.choose.QueueOk := by
  obtain ⟨hc, -⟩ | ⟨source, e, hcand, hc, -⟩ | ⟨source, e, -, hc, -⟩ := s.choose_cases
  · rw [hc]
    exact State.QueueOk.of_queue rfl h
  · rw [hc]
    exact State.startFrame_queueOk hs he h hair hcand
  · rw [hc]
    exact State.QueueOk.of_queue rfl (State.queueWithOwed_carries hs h)

theorem AirFrame.key_of_not_inCycle {f : AirFrame} (h : f.inCycle = false) : f.key = none := by
  cases f with
  | record r => cases h
  | withdrawal w => cases h
  | _ => rfl

theorem byteTime_queueOk {s : State} (he : s.EngineOk) (h : s.QueueOk) : (byteTime s).QueueOk := by
  unfold byteTime
  split
  · obtain ⟨heng, -⟩ | ⟨w, hair, hw, heng, -⟩ := s.passByte_cases
    · have hsame : s.passByte.cycFalls.engine = s.engine := heng
      exact h.of_carries (by rw [hsame]) (.inr (by rw [hsame])) (by simp)
    · obtain ⟨-, hframe, -, -⟩ := he.waiting w hw
      have hsent := State.beginFrameAfter_queueOk (s := { s with line := w.lead.take 1 }) h.known w.lead.tail
        (AirFrame.key_of_not_inCycle hframe)
      have hsame : s.passByte.cycFalls.engine = (s.finishLead w).engine := heng
      exact hsent.of_carries (by rw [hsame]; rfl) (.inr (by rw [hsame]; rfl)) (by simp)
  · exact h

theorem State.clrFalls_queueOk {s : State} (hs : s.dir.sorted) (h : s.QueueOk) : s.clrFalls.QueueOk := by
  unfold State.clrFalls
  dsimp only
  split
  · refine State.QueueOk.of_queue rfl fun k hk => ?_
    rw [State.enterFault_dir, State.cutLine_dir]
    unfold State.cutLine at hk
    split at hk
    · exact State.earlyEnd_carries (s := { s with link := { s.link with clr := false } }) hs ⟨h.known, h.onAir⟩ k hk
    · split at hk
      · exact h.known k hk
      · exact h.known k hk
  · exact ⟨h.known, h.onAir⟩

theorem State.QueueOk.of_empty {u : State} (hqueue : u.engine.queue = []) (hair : u.engine.onAir = none) : u.QueueOk :=
  State.QueueOk.of_queue (by simp [hair]) (by simp [hqueue])

theorem State.Move.keeps_queue {s u : State} {i : Option Instr} (hm : s.Move i u) (hs : s.dir.sorted) (he : s.EngineOk) (h : s.QueueOk) :
    u.QueueOk := by
  cases hm with
  | byteTime => exact byteTime_queueOk he h
  | cycPulseEnds => exact (byteTime_queueOk he h).of_carries rfl (.inr rfl) fun _ hk => hk
  | powerOnReset => exact State.QueueOk.of_empty rfl rfl
  | powerOnInitialisation => exact State.QueueOk.of_empty rfl rfl
  | clear => exact State.QueueOk.of_empty rfl rfl
  | stopAborts =>
    exact State.beginFrameAfter_queueOk (s := (s.withStop .immediate).earlyEnd)
      (State.earlyEnd_carries (s := s.withStop .immediate) hs ⟨h.known, h.onAir⟩) _ rfl
  | stopAbortsEnd =>
    exact State.beginFrameAfter_queueOk (s := { s.withStop .immediate with engine := { s.engine with truncPrev := true } })
      h.known _ rfl
  | stopTruncates =>
    exact State.beginFrameAfter_queueOk (s := (s.withStop .frame).earlyEnd)
      (State.earlyEnd_carries (s := s.withStop .frame) hs ⟨h.known, h.onAir⟩) _ rfl
  | openSlot => exact h.of_carries rfl (.inr rfl) fun k hk => hk.opened _ _
  | commit =>
    refine h.of_carries (by rw [State.wake_engine]; rfl) (.inr (by rw [State.wake_engine]; rfl)) fun k hk => ?_
    rw [State.wake_dir]
    exact hk.update (Entry.commit_key _ _) fun _ _ => rfl
  | cancel => exact h.of_carries rfl (.inr rfl) fun k hk => hk.cancelled hs _
  | retire => exact h.of_carries rfl (.inr rfl) fun k hk => hk.update (Entry.retire_key _) fun _ => Entry.retire_onCarousel _
  | feed => exact h.of_carries rfl (.inr rfl) fun k hk => hk.update (Entry.fed_key _ _) fun _ => Entry.fed_onCarousel _ _
  | notice hmem => exact h.of_carries rfl (.inr rfl) fun k hk => hk.collected hs (State.noticed_mem hmem)
  | configure =>
    refine h.of_carries rfl (.inr rfl) fun k hk => ?_
    dsimp only
    split
    · exact hk.map (Entry.clip_key _) fun _ => Entry.clip_onCarousel _
    · exact hk
  | clrFalls => exact State.clrFalls_queueOk hs h
  | cycleStarts =>
    exact h.of_carries rfl (.inl rfl) fun k hk => hk.map (Entry.atCycleStart_key _ _) fun _ => Entry.atCycleStart_onCarousel _ _
  | choiceEnds =>
    exact State.beginFrameAfter_queueOk (State.earlyEnd_carries (s := s.sendGap) hs ⟨h.known, h.onAir⟩) [] rfl
  | choice hallowed =>
    obtain ⟨hopen, -, hair⟩ := s.choiceAllowed_iff.mp hallowed
    have hsend : s.sendGap.EngineOk := he.of_same rfl rfl
    refine State.choose_queueOk (by simpa using hs) (State.settleQueue_engineOk hsend hair hopen) ?_ (by simpa using hair)
    rw [State.settleQueue_dir]
    exact State.settleQueue_carries (s := s.sendGap) h.known
  | cycleStartEnds => exact State.afterFrame_queueOk (s := s.sendToFrameEnd) hs h.known
  | recordEnds =>
    exact State.afterFrame_queueOk (s := s.sendToFrameEnd.recordDone _) (Directory.update_sorted hs _ _ (Entry.recordSent_key _))
      fun k hk => Directory.Carries.update (h.known k hk) (Entry.recordSent_key _) fun _ => Entry.recordSent_onCarousel _
  | @withdrawalEnds f hair =>
    have hsorted : (s.dir.withdrawalSent f.key s.params.spentNotice).sorted :=
      List.pairwise_map.mp ((List.pairwise_map.mpr hs).sublist (Directory.withdrawalSent_keys_sublist _ _ _))
    refine State.afterFrame_queueOk (s := s.sendToFrameEnd.withdrawalDone f) hsorted fun k hk => ?_
    obtain ⟨-, hnot⟩ := h.onAir f.key (by simp [hair, AirFrame.key])
    have hne : k ≠ f.key := fun hkf => hnot (hkf ▸ hk)
    obtain ⟨x, hx, hon⟩ := Directory.carries_iff.mp (h.known k hk)
    exact Directory.carries_iff.mpr ⟨x, (Directory.entryOf_withdrawalSent_other _ _ hne).trans hx, hon⟩
  | stopHaltsNow => exact h.of_carries rfl (.inl rfl) fun _ hk => hk
  | clearWaitExpires => exact h.of_carries rfl (.inl rfl) fun _ hk => hk
  | cycleEndHalts => exact h.of_carries rfl (.inl rfl) fun _ hk => hk
  | cycleEndSleeps => exact h.of_carries rfl (.inl rfl) fun _ hk => hk
  | cycleEndContinues => exact h.of_carries rfl (.inl rfl) fun _ hk => hk
  | abortEnds => exact h.of_carries rfl (.inl rfl) fun _ hk => hk
  | _ => exact h.of_carries (by simp) (.inr (by simp)) (by simp)

/-- Distinct queued keys have distinct entries, and the directory has room for 256 (R7, R85). -/
theorem State.queue_length_le {s : State} (hd : s.directoryOk) (he : s.EngineOk) (h : s.QueueOk) : s.engine.queue.length ≤ 256 := by
  obtain ⟨-, hroom, -⟩ := hd
  have hsub : s.engine.queue ⊆ s.dir.map Entry.key := fun k hk => by
    obtain ⟨e, hfind, -⟩ := Directory.carries_iff.mp (h.known k hk)
    exact List.mem_map.mpr ⟨e, Directory.entryOf_mem hfind, Directory.entryOf_key hfind⟩
  calc s.engine.queue.length ≤ (s.dir.map Entry.key).length := (he.queue.subperm hsub).length_le
    _ = s.dir.length := List.length_map ..
    _ ≤ 256 := hroom

theorem State.EngineOk.withPort {s : State} (h : s.EngineOk) (r : Bool) (p : Port) (q : List Instr) : (s.withPort r p q).EngineOk :=
  h.of_same rfl rfl

theorem State.QueueOk.withPort {s : State} (h : s.QueueOk) (r : Bool) (p : Port) (q : List Instr) : (s.withPort r p q).QueueOk :=
  ⟨h.known, h.onAir⟩

end Sys2Proof.Machine

namespace Sys2Proof.Proofs

open Sys2Proof.Machine

/-- Settles O58: the engine's promise and the queue's move by move; the queue's keys are distinct keys of the directory. -/
theorem stepKeepsTheEngine : Obligations.StepKeepsTheEngine := fun _ _ hd he hq h =>
  step_keeps (Pre := fun s => s.directoryOk ∧ s.EngineOk ∧ s.QueueOk)
    (Post := fun s => s.EngineOk ∧ s.QueueOk ∧ s.engine.queue.length ≤ 256)
    (fun _ _ _ _ ⟨hd, he, hq⟩ => ⟨hd, he.withPort .., hq.withPort ..⟩)
    (fun _ _ _ _ ⟨he, hq, hlength⟩ => ⟨he.withPort .., hq.withPort .., hlength⟩)
    (fun _ _ _ ⟨hd, he, hq⟩ hm =>
      have he' := hm.keeps_engine hd.1 he
      have hq' := hm.keeps_queue hd.1 he hq
      ⟨he', hq', State.queue_length_le (hm.keeps_directory hd) he' hq'⟩) ⟨hd, he, hq⟩ h

end Sys2Proof.Proofs

/-! The on-air hold's promise (R28, R29): it holds the chain of the Record frame on air alone, and while it is empty that chain is still its
entry's front chain. -/

namespace Sys2Proof.Machine

/-! ## Entries that keep their front chain -/

/-- Every front chain of a block or more stays with its key. -/
def Directory.KeepsFronts (d d' : Directory) : Prop :=
  ∀ e ∈ d, e.body.front ≠ [] → ∃ e' ∈ d', e'.key = e.key ∧ e'.body.front = e.body.front

theorem Directory.KeepsFronts.refl (d : Directory) : d.KeepsFronts d := fun e he _ => ⟨e, he, rfl, rfl⟩

theorem Directory.keepsFronts_map {f : Entry → Entry} (hkey : ∀ e, (f e).key = e.key) (hf : ∀ e, (f e).body.front = e.body.front)
    (d : Directory) : d.KeepsFronts (d.map f) :=
  fun e he _ => ⟨f e, List.mem_map.mpr ⟨e, he, rfl⟩, hkey e, hf e⟩

theorem Directory.keepsFronts_update {f : Entry → Entry} (hkey : ∀ e, (f e).key = e.key) (hf : ∀ e, (f e).body.front = e.body.front)
    (d : Directory) (k : Key) : d.KeepsFronts (d.update k f) :=
  Directory.keepsFronts_map (f := fun e => if e.key = k then f e else e) (fun e => by split <;> simp [hkey])
    (fun e => by split <;> simp [hf]) d

theorem Body.live_of_front {b : Body} (h : b.front ≠ []) : ∃ v, b = .live v := by
  cases b with
  | live v => exact ⟨v, rfl⟩
  | _ => exact absurd rfl h

theorem Directory.keepsFronts_remove {d : Directory} (hs : d.sorted) {e : Entry} (he : e ∈ d) (hb : ∀ v, e.body ≠ .live v) :
    d.KeepsFronts (d.remove e.key) := fun x hx hfront => by
  refine ⟨x, Directory.mem_remove.mpr ⟨hx, fun hkey => ?_⟩, rfl, rfl⟩
  obtain rfl := Directory.eq_of_key hs he hx hkey
  obtain ⟨v, hv⟩ := Body.live_of_front hfront
  exact hb v hv

section Fronts

variable (e : Entry)

theorem Entry.withSlot_front (o : Option SlotNo) : (e.withSlot o).body.front = e.body.front := by
  simp only [Entry.withSlot]
  cases e.body <;> rfl

theorem Entry.fed_front (offset fill : Nat) : (e.fed offset fill).body.front = e.body.front := by
  unfold Entry.fed
  split
  · rename_i h
    rw [h]
    rfl
  · rfl

theorem Entry.clip_front (w : Nat) : (e.clip w).body.front = e.body.front := by
  unfold Entry.clip
  split
  · rename_i h
    rw [h]
    rfl
  · rfl

end Fronts

theorem Directory.keepsFronts_opened (d : Directory) (key : Key) (n : SlotNo) : d.KeepsFronts (d.opened key n) := by
  unfold Directory.opened
  split
  · exact Directory.keepsFronts_update (Entry.withSlot_key _) (fun e => e.withSlot_front _) d key
  · rename_i hnone
    exact fun e he _ => ⟨e, Directory.mem_insert_other (e := stagedEntry key n) (Directory.entryOf_eq_none.mp hnone e he) he, rfl, rfl⟩

theorem Directory.keepsFronts_cancelled {d : Directory} (hs : d.sorted) (key : Key) : d.KeepsFronts (d.cancelled key) := by
  unfold Directory.cancelled
  split
  · rename_i e he
    obtain rfl := Directory.entryOf_key he
    split
    · rename_i hstaged
      exact Directory.keepsFronts_remove hs (Directory.entryOf_mem he) fun v hv => by simp [Entry.isStaged, hv] at hstaged
    · exact Directory.keepsFronts_update (Entry.withSlot_key _) (fun e => e.withSlot_front _) d _
  · exact .refl d

theorem Directory.keepsFronts_collected {d : Directory} (hs : d.sorted) {e : Entry} (he : e ∈ d) : d.KeepsFronts (d.collected e) := by
  unfold Directory.collected
  split
  · rename_i hspent
    exact Directory.keepsFronts_remove hs he fun v hv => by simp [Entry.isSpent, hv] at hspent
  · exact Directory.keepsFronts_update (f := fun x => { x with flags := Flags.none }) (fun _ => rfl) (fun _ => rfl) d _

/-! ## The hold's promise -/

/-- With no Record frame on air the hold is empty. -/
theorem State.HoldOk.hold_none {s : State} (h : s.HoldOk) (hair : ∀ f, s.engine.onAir ≠ some (.record f)) : s.pool.hold = none := by
  cases hhold : s.pool.hold with
  | none => rfl
  | some c =>
    obtain ⟨-, f, hf, -⟩ := h.held c hhold
    exact absurd hf (hair f)

theorem State.HoldOk.of_empty {u : State} (hhold : u.pool.hold = none) (hair : ∀ f, u.engine.onAir ≠ some (.record f)) : u.HoldOk where
  held c hc := by simp [hhold] at hc
  unheld _ f hf := absurd hf (hair f)

/-- No Record frame is on air before, none after, and the hold is left. -/
theorem State.HoldOk.of_idle {s u : State} (h : s.HoldOk) (hair : ∀ f, s.engine.onAir ≠ some (.record f))
    (hhold : u.pool.hold = s.pool.hold) (hair' : ∀ f, u.engine.onAir ≠ some (.record f)) : u.HoldOk :=
  .of_empty (hhold.trans (h.hold_none hair)) hair'

theorem State.HoldOk.of_same {s u : State} (h : s.HoldOk) (hhold : u.pool.hold = s.pool.hold) (hair : u.engine.onAir = s.engine.onAir)
    (hdir : s.dir.KeepsFronts u.dir) : u.HoldOk where
  held c hc := hair ▸ h.held c (hhold ▸ hc)
  unheld hnone f hf hchain := by
    obtain ⟨e, he, hkey, hfront⟩ := h.unheld (hhold ▸ hnone) f (hair ▸ hf) hchain
    obtain ⟨e', he', hkey', hfront'⟩ := hdir e he (hfront ▸ hchain)
    exact ⟨e', he', hkey'.trans hkey, hfront'.trans hfront⟩

theorem frameUses_iff (onAir : Option AirFrame) (key : Key) (c : Chain) :
    frameUses onAir key c = true ↔ ∃ f, onAir = some (.record f) ∧ f.key = key ∧ f.chain = c ∧ c ≠ [] := by
  unfold frameUses
  split
  · simp [and_assoc]
  · rename_i hother
    exact ⟨nofun, fun ⟨f, hf, _⟩ => absurd hf (hother f)⟩

/-- The hold after the chains of a body leave it: the front chain when it is on air, else as before (R26 to R28). -/
theorem Pool.displaceBody_hold (p : Pool) (onAir : Option AirFrame) (key : Key) (b : Body) :
    (p.displaceBody onAir key b).hold =
      if frameUses onAir key b.front = true ∧ p.hold = none then some b.front else p.hold := by
  have hfront (c : Chain) : (p.displaceFront onAir key c).hold =
      if frameUses onAir key c = true ∧ p.hold = none then some c else p.hold := by
    unfold Pool.displaceFront
    simp only [Bool.and_eq_true, Option.isNone_iff_eq_none]
    split <;> rfl
  cases b with
  | live v =>
    simp only [Pool.displaceBody, Pool.displace]
    split <;> exact hfront v.front
  | _ =>
    refine (if_neg fun h => ?_).symm
    obtain ⟨_, -, -, -, hne⟩ := (frameUses_iff ..).mp h.1
    exact hne rfl

/-- The chains of one entry leave it: the chain on air goes to the hold with them, if it is there (R28). -/
theorem State.HoldOk.displaced {s u : State} (h : s.HoldOk) (hs : s.dir.sorted) {e : Entry} (he : e ∈ s.dir)
    (hhold : u.pool.hold = (s.pool.displaceBody s.engine.onAir e.key e.body).hold) (hair : u.engine.onAir = s.engine.onAir)
    (hdir : ∀ x ∈ s.dir, x.key ≠ e.key → x ∈ u.dir) : u.HoldOk := by
  rw [Pool.displaceBody_hold] at hhold
  by_cases huses : frameUses s.engine.onAir e.key e.body.front = true ∧ s.pool.hold = none
  · rw [if_pos huses] at hhold
    obtain ⟨f, hf, -, hchain, hne⟩ := (frameUses_iff ..).mp huses.1
    refine ⟨fun c hc => ?_, fun hnone => by simp [hhold] at hnone⟩
    obtain rfl := Option.some.inj (hhold.symm.trans hc)
    exact ⟨hne, f, hair.trans hf, hchain⟩
  · rw [if_neg huses] at hhold
    refine ⟨fun c hc => hair ▸ h.held c (hhold ▸ hc), fun hnone f hf hchain => ?_⟩
    have hf' := hair ▸ hf
    obtain ⟨x, hx, hkey, hfront⟩ := h.unheld (hhold ▸ hnone) f hf' hchain
    refine ⟨x, hdir x hx fun hxe => huses ⟨?_, hhold ▸ hnone⟩, hkey, hfront⟩
    obtain rfl := Directory.eq_of_key hs he hx hxe
    exact (frameUses_iff ..).mpr ⟨f, hf', hkey.symm, hfront.symm, hfront ▸ hchain⟩

/-! ### The engine's acts -/

theorem AirFrame.not_record_of_not_inCycle {f : AirFrame} (h : f.inCycle = false) (r : RecordFrame) : f ≠ .record r := by
  rintro rfl
  cases h

/-- A frame without a record starts, at once or behind other bytes, with the hold empty. -/
theorem State.beginFrameAfter_holdOk {s : State} (hhold : s.pool.hold = none) (lead : List Byte) {f : AirFrame}
    (hf : f.inCycle = false) : (s.beginFrameAfter lead f).HoldOk := by
  refine .of_empty (by simpa using hhold) fun r hr => ?_
  rw [State.beginFrameAfter_onAir] at hr
  split at hr
  · exact AirFrame.not_record_of_not_inCycle hf r (Option.some.inj hr)
  · cases hr

theorem State.truncatedEnd_holdOk (s : State) (lead : List Byte) : (s.truncatedEnd lead).HoldOk :=
  State.beginFrameAfter_holdOk (s := s.earlyEnd) (by simp) lead rfl

theorem State.afterFrame_holdOk {s : State} (hhold : s.pool.hold = none) : s.afterFrame.HoldOk := by
  unfold State.afterFrame
  split
  · exact State.truncatedEnd_holdOk _ _
  · exact .of_empty hhold nofun

theorem byteTime_holdOk {s : State} (he : s.EngineOk) (h : s.HoldOk) : (byteTime s).HoldOk := by
  unfold byteTime
  split
  · obtain ⟨heng, -⟩ | ⟨w, hair, hw, heng, -⟩ := s.passByte_cases
    · have hsame : s.passByte.cycFalls.engine = s.engine := heng
      exact h.of_same (by simp) (by rw [hsame]) (by simpa using Directory.KeepsFronts.refl s.dir)
    · obtain ⟨-, hframe, -, -⟩ := he.waiting w hw
      have hhold : s.pool.hold = none := h.hold_none (by simp [hair])
      have hstart := State.beginFrameAfter_holdOk (s := { s with line := w.lead.take 1 }) hhold w.lead.tail hframe
      have hsame : s.passByte.cycFalls.engine = (s.finishLead w).engine := heng
      exact hstart.of_same (by simp) (by rw [hsame]; rfl) (by simpa using Directory.KeepsFronts.refl s.dir)
  · exact h

/-- The chain that a Record frame fixes at its start is its entry's front chain from then on (R80, R99). -/
theorem State.startFrame_holdOk {s : State} (hhold : s.pool.hold = none) (hair : s.engine.onAir = none) {source : Source} {e : Entry}
    (he : e ∈ s.dir) : (s.startFrame source e).HoldOk := by
  unfold State.startFrame
  split
  · rename_i f hf
    refine ⟨fun c hc => absurd (hhold.symm.trans hc) nofun, fun _ r hr _ => ?_⟩
    obtain rfl : f = .record r := Option.some.inj hr
    refine ⟨e.atFrameStart, List.mem_map.mpr ⟨e, he, if_pos rfl⟩, ?_⟩
    unfold Entry.frame at hf
    cases hb : e.body with
    | live v =>
      simp only [hb, Option.some.injEq, AirFrame.record.injEq] at hf
      subst hf
      simp only [Entry.atFrameStart, hb, true_and]
      rfl
    | _ => simp [hb] at hf
  · exact .of_empty hhold (by simp [hair])

theorem State.candidate_mem {s : State} {source : Source} {e : Entry} (h : s.candidate = some (source, e)) : e ∈ s.dir := by
  obtain ⟨-, -, rest, -, he⟩ | ⟨-, -, rest, hwalk⟩ := State.candidate_cases h
  · exact Directory.entryOf_mem he
  · exact (State.mem_walkCandidates (by simp [hwalk])).1

theorem State.choose_holdOk {s : State} (hhold : s.pool.hold = none) (hair : s.engine.onAir = none) : s.choose.HoldOk := by
  obtain ⟨hc, -⟩ | ⟨source, e, hcand, hc, -⟩ | ⟨source, e, -, hc, -⟩ := s.choose_cases
  · rw [hc]
    exact .of_empty hhold nofun
  · rw [hc]
    exact State.startFrame_holdOk hhold hair (State.candidate_mem hcand)
  · rw [hc]
    exact .of_empty hhold nofun

/-- A Record frame is on air only in an open cycle. -/
theorem State.EngineOk.not_record {s : State} (h : s.EngineOk) (hclosed : s.cycleOpen = false) (f : RecordFrame) :
    s.engine.onAir ≠ some (.record f) := fun hf => by
  have hopen := h.frame _ hf
  rw [hclosed] at hopen
  cases hopen

theorem State.clrFalls_holdOk {s : State} (he : s.EngineOk) (h : s.HoldOk) : s.clrFalls.HoldOk := by
  unfold State.clrFalls
  dsimp only
  split
  · refine .of_empty ?_ nofun
    rw [State.enterFault_pool]
    unfold State.cutLine
    split
    · simp
    · rename_i hclosed
      have hhold := h.hold_none (he.not_record (Bool.eq_false_of_not_eq_true hclosed))
      split
      · exact hhold
      · exact hhold
  · exact ⟨h.held, h.unheld⟩

/-- While a Cycle End or an Abort is the next frame to end, no Record frame is on air. -/
theorem State.not_record_of_nextEnding {s : State} {g : AirFrame} (h : s.nextEnding = some g) (hg : ∀ r, g ≠ .record r) (f : RecordFrame) :
    s.engine.onAir ≠ some (.record f) := fun hf => by
  simp only [State.nextEnding, hf, Option.some.injEq] at h
  exact hg f h.symm

theorem State.onAir_of_nextEnding_none {s : State} (h : s.nextEnding = none) : s.engine.onAir = none := by
  unfold State.nextEnding at h
  cases hair : s.engine.onAir with
  | none => rfl
  | some f => simp [hair] at h

theorem State.LinkOk.onAir_none {s : State} (h : s.LinkOk) (hstate : s.link.state ≠ .running) : s.engine.onAir = none := by
  cases hair : s.engine.onAir with
  | none => rfl
  | some f => exact absurd (h.onAir (by simp [hair])) hstate

theorem State.LinkOk.clearWait_state {s : State} (h : s.LinkOk) {ms : Nat} (hms : s.link.clearWait = some ms) :
    s.link.state = .clearWait := h.clearWait.mp (by simp [hms])

theorem State.LinkOk.keyUp_state {s : State} (h : s.LinkOk) {ms : Nat} (hms : s.link.keyUp = some ms) : s.link.state = .keying :=
  h.keyUp.mp (by simp [hms])

theorem State.cycleAllowed_iff (s : State) : s.cycleAllowed = true ↔ s.engine.phase = .between ∧ s.link.state = .running ∧
    s.engine.onAir = none ∧ s.link.stop = .none ∧ (s.link.firstPending = true ∨ s.link.pacing = .expired) := by
  simp [State.cycleAllowed, and_assoc]

theorem State.Move.keeps_hold {s u : State} {i : Option Instr} (hm : s.Move i u) (hs : s.dir.sorted) (hl : s.LinkOk) (he : s.EngineOk)
    (h : s.HoldOk) : u.HoldOk := by
  have idle (hair : s.engine.onAir = none) (f : RecordFrame) : s.engine.onAir ≠ some (.record f) := by simp [hair]
  cases hm with
  | byteTime => exact byteTime_holdOk he h
  | cycPulseEnds => exact (byteTime_holdOk he h).of_same rfl rfl (.refl _)
  | powerOnReset => exact .of_empty rfl nofun
  | powerOnInitialisation => exact .of_empty rfl nofun
  | clear => exact .of_empty rfl nofun
  | stopAborts =>
    exact State.beginFrameAfter_holdOk (s := (s.withStop .immediate).earlyEnd) (by simp) _ rfl
  | stopAbortsEnd _ _ _ hnext =>
    exact State.beginFrameAfter_holdOk (s := { s.withStop .immediate with engine := { s.engine with truncPrev := true } })
      (h.hold_none (State.not_record_of_nextEnding hnext nofun)) _ rfl
  | stopTruncates => exact State.truncatedEnd_holdOk _ _
  | stopHaltsNow _ _ _ hnext => exact h.of_idle (idle (State.onAir_of_nextEnding_none hnext)) rfl nofun
  | openSlot => exact h.of_same rfl rfl (Directory.keepsFronts_opened _ _ _)
  | write => exact h.of_same rfl rfl (.refl _)
  | @commit slot n x confirm e _ _ _ hx =>
    have hkey := Directory.entryOf_key hx
    refine h.displaced hs (Directory.entryOf_mem hx) ?_ (by rw [State.wake_engine]; rfl) fun y hy hne => ?_
    · rw [State.wake_pool, hkey]
      rfl
    · rw [State.wake_dir]
      exact (Directory.mem_update_other (Entry.commit_key _ _) (hkey ▸ hne)).mpr hy
  | cancel => exact h.of_same rfl rfl (Directory.keepsFronts_cancelled hs _)
  | retire _ hx hbody =>
    refine h.displaced hs hx ?_ rfl fun y hy hne => (Directory.mem_update_other (Entry.retire_key _) hne).mpr hy
    rw [hbody]
    rfl
  | feed => exact h.of_same rfl rfl (Directory.keepsFronts_update (Entry.fed_key _ _) (fun e => e.fed_front _ _) _ _)
  | notice hx => exact h.of_same rfl rfl (Directory.keepsFronts_collected hs (State.noticed_mem hx))
  | configure =>
    refine h.of_same rfl rfl ?_
    dsimp only
    split
    · exact Directory.keepsFronts_map (Entry.clip_key _) (fun e => e.clip_front _) _
    · exact .refl _
  | clearWaitExpires hms => exact h.of_idle (idle (hl.onAir_none (by simp [hl.clearWait_state hms]))) rfl nofun
  | clrFalls => exact State.clrFalls_holdOk he h
  | cycleStarts hallowed =>
    obtain ⟨-, -, hair, -⟩ := s.cycleAllowed_iff.mp hallowed
    exact h.of_idle (idle hair) rfl nofun
  | choiceEnds => exact State.truncatedEnd_holdOk _ _
  | choice hallowed =>
    obtain ⟨-, -, hair⟩ := s.choiceAllowed_iff.mp hallowed
    exact State.choose_holdOk (by simpa using h.hold_none (idle hair)) (by simpa using hair)
  | cycleStartEnds hair => exact State.afterFrame_holdOk (s := s.sendToFrameEnd) (h.hold_none (by simp [hair]))
  | recordEnds => exact State.afterFrame_holdOk (by simp)
  | withdrawalEnds => exact State.afterFrame_holdOk (by simp)
  | cycleEndHalts hnext => exact h.of_idle (State.not_record_of_nextEnding hnext nofun) rfl nofun
  | cycleEndSleeps hnext => exact h.of_idle (State.not_record_of_nextEnding hnext nofun) rfl nofun
  | cycleEndContinues hnext => exact h.of_idle (State.not_record_of_nextEnding hnext nofun) rfl nofun
  | abortEnds hnext => exact h.of_idle (State.not_record_of_nextEnding hnext nofun) rfl nofun
  | _ => exact h.of_same (by simp) (by simp) (by simpa using Directory.KeepsFronts.refl s.dir)

theorem State.HoldOk.withPort {s : State} (h : s.HoldOk) (r : Bool) (p : Port) (q : List Instr) : (s.withPort r p q).HoldOk :=
  ⟨h.held, h.unheld⟩

theorem State.LinkOk.withPort {s : State} (h : s.LinkOk) (r : Bool) (p : Port) (q : List Instr) : (s.withPort r p q).LinkOk :=
  ⟨h.cause, h.stop, h.keyUp, h.clearWait, h.pacing, h.first, h.cyc, h.onAir, h.cycleOpen, h.clr, h.waiting⟩

end Sys2Proof.Machine

namespace Sys2Proof.Proofs

open Sys2Proof.Machine

/-- Settles O56: a displaced front chain goes to the hold exactly when it is on air, and every other end of a Record frame empties the
hold. -/
theorem stepKeepsTheHold : Obligations.StepKeepsTheHold := fun _ _ hd hl he hh h =>
  step_keeps (Pre := fun s => s.directoryOk ∧ s.LinkOk ∧ s.EngineOk ∧ s.HoldOk) (Post := State.HoldOk)
    (fun _ _ _ _ ⟨hd, hl, he, hh⟩ => ⟨hd, hl.withPort .., he.withPort .., hh.withPort ..⟩) (fun _ _ _ _ hh => hh.withPort ..)
    (fun _ _ _ ⟨hd, hl, he, hh⟩ hm => hm.keeps_hold hd.1 hl he hh) ⟨hd, hl, he, hh⟩ h

end Sys2Proof.Proofs

/-! The link controller's promise (R107, R108, R118), CLEAR only at rest (R157), and CYC on the marker of a Cycle Start frame (R108, R129). -/

namespace Sys2Proof.Machine

/-! ## The link's promise -/

theorem State.LinkOk.of_same {s u : State} (h : s.LinkOk) (hlink : u.link = s.link) (hair : u.engine.onAir.isSome → s.engine.onAir.isSome)
    (hopen : u.cycleOpen = true → s.cycleOpen = true) (hw : u.encoder.waiting.isSome → s.encoder.waiting.isSome) : u.LinkOk where
  cause := hlink ▸ h.cause
  stop := hlink ▸ h.stop
  keyUp := hlink ▸ h.keyUp
  clearWait := hlink ▸ h.clearWait
  pacing := hlink ▸ h.pacing
  first := hlink ▸ h.first
  cyc := hlink ▸ h.cyc
  onAir hs := hlink ▸ h.onAir (hair hs)
  cycleOpen hs := hlink ▸ h.cycleOpen (hopen hs)
  clr := hlink ▸ h.clr
  waiting hs := hlink ▸ h.waiting (hw hs)

/-- In RUNNING the promise leaves little to say: what the link shows beside its state, and what waits. -/
theorem State.LinkOk.of_running {u : State} (hstate : u.link.state = .running) (hcause : u.link.cause = .none)
    (hkey : u.link.keyUp = none) (hclear : u.link.clearWait = none) (hclr : u.link.clr = true)
    (hw : u.encoder.waiting.isSome = true → u.link.stop ≠ .none) : u.LinkOk where
  cause := by simp [hcause, hstate]
  stop _ := hstate
  keyUp := by simp [hkey, hstate]
  clearWait := by simp [hclear, hstate]
  pacing _ := hstate
  first _ := hstate
  cyc _ := hstate
  onAir _ := hstate
  cycleOpen _ := hstate
  clr _ := hclr
  waiting := hw

/-- What the promise says of a link that is not RUNNING: no stop point, no pacing, no frame, no open cycle. -/
structure State.Quiet (s : State) : Prop where
  stop : s.link.stop = .none
  pacing : s.link.pacing = .stopped
  first : s.link.firstPending = false
  cyc : s.link.cyc = false
  onAir : s.engine.onAir = none
  phase : s.engine.phase = .between
  waiting : s.encoder.waiting = none

theorem State.LinkOk.quiet {s : State} (h : s.LinkOk) (hstate : s.link.state ≠ .running) : s.Quiet where
  stop := not_not.mp (mt h.stop hstate)
  pacing := not_not.mp (mt h.pacing hstate)
  first := Bool.eq_false_of_not_eq_true (mt h.first hstate)
  cyc := Bool.eq_false_of_not_eq_true (mt h.cyc hstate)
  onAir := h.onAir_none hstate
  phase := State.cycleOpen_eq_false.mp (Bool.eq_false_of_not_eq_true (mt h.cycleOpen hstate))
  waiting := by
    have hstop := not_not.mp (mt h.stop hstate)
    exact Option.not_isSome_iff_eq_none.mp (mt h.waiting (not_not_intro hstop))

theorem State.Quiet.linkOk {u : State} (h : u.Quiet) (hstate : u.link.state ≠ .running)
    (hcause : u.link.cause ≠ .none ↔ u.link.state = .fault) (hkey : u.link.keyUp.isSome = true ↔ u.link.state = .keying)
    (hclear : u.link.clearWait.isSome = true ↔ u.link.state = .clearWait) : u.LinkOk where
  cause := hcause
  stop hs := absurd h.stop hs
  keyUp := hkey
  clearWait := hclear
  pacing hs := absurd h.pacing hs
  first hs := by simp [h.first] at hs
  cyc hs := by simp [h.cyc] at hs
  onAir hs := by simp [h.onAir] at hs
  cycleOpen hs := by simp [State.cycleOpen, h.phase] at hs
  clr hs := absurd hs hstate
  waiting hs := by simp [h.waiting] at hs

theorem State.LinkOk.cause_none {s : State} (h : s.LinkOk) (hstate : s.link.state ≠ .fault) : s.link.cause = .none :=
  not_not.mp (mt h.cause.mp hstate)

theorem State.LinkOk.keyUp_none {s : State} (h : s.LinkOk) (hstate : s.link.state ≠ .keying) : s.link.keyUp = none :=
  Option.not_isSome_iff_eq_none.mp (mt h.keyUp.mp hstate)

theorem State.LinkOk.clearWait_none {s : State} (h : s.LinkOk) (hstate : s.link.state ≠ .clearWait) : s.link.clearWait = none :=
  Option.not_isSome_iff_eq_none.mp (mt h.clearWait.mp hstate)

/-- A link that stays RUNNING keeps the promise where the bytes that wait have their stop point. -/
theorem State.LinkOk.of_still_running {s u : State} (h : s.LinkOk) (hstate : s.link.state = .running) (hstate' : u.link.state = .running)
    (hcause : u.link.cause = s.link.cause) (hkey : u.link.keyUp = s.link.keyUp) (hclear : u.link.clearWait = s.link.clearWait)
    (hclr : u.link.clr = s.link.clr) (hw : u.encoder.waiting.isSome = true → u.link.stop ≠ .none) : u.LinkOk :=
  .of_running hstate' (hcause.trans (h.cause_none (by simp [hstate]))) (hkey.trans (h.keyUp_none (by simp [hstate])))
    (hclear.trans (h.clearWait_none (by simp [hstate]))) (hclr.trans (h.clr hstate)) hw

/-! ### Entering each link state -/

/-- HALTED from RUNNING, between cycles (R116). -/
theorem State.enterHalted_linkOk {s : State} (h : s.LinkOk) (hstate : s.link.state = .running) (hphase : s.engine.phase = .between) :
    s.enterHalted.LinkOk := by
  have hquiet : s.enterHalted.Quiet := ⟨rfl, rfl, rfl, rfl, rfl, hphase, rfl⟩
  have hcause := h.cause_none (by simp [hstate])
  have hkey := h.keyUp_none (by simp [hstate])
  have hclear := h.clearWait_none (by simp [hstate])
  exact hquiet.linkOk nofun (by simp [State.enterHalted, hcause]) (by simp [State.enterHalted, hkey])
    (by simp [State.enterHalted, hclear])

/-- DORMANT from RUNNING, between cycles (R119). -/
theorem State.enterDormant_linkOk {s : State} (h : s.LinkOk) (hstate : s.link.state = .running) (hphase : s.engine.phase = .between) :
    s.enterDormant.LinkOk := by
  have hquiet : s.enterDormant.Quiet := ⟨rfl, rfl, rfl, rfl, rfl, hphase, rfl⟩
  have hcause := h.cause_none (by simp [hstate])
  have hkey := h.keyUp_none (by simp [hstate])
  have hclear := h.clearWait_none (by simp [hstate])
  exact hquiet.linkOk nofun (by simp [State.enterDormant, hcause]) (by simp [State.enterDormant, hkey])
    (by simp [State.enterDormant, hclear])

/-- FAULT, between cycles (R121). -/
theorem State.enterFault_linkOk {s : State} (hphase : s.engine.phase = .between) {c : FaultCause} (hc : c ≠ .none) :
    (s.enterFault c).LinkOk := by
  have hquiet : (s.enterFault c).Quiet := ⟨rfl, rfl, rfl, rfl, rfl, hphase, rfl⟩
  exact hquiet.linkOk nofun (by simp [State.enterFault, hc]) (by simp [State.enterFault]) (by simp [State.enterFault])

@[simp] theorem State.enterRunning_link (s : State) (p : BytePoint) : (s.enterRunning p).link = { s.link with
    state := .running, stop := .none, keyUp := none, clearWait := none, pacing := .stopped, firstPending := true } := by
  cases p <;> rfl

/-- RUNNING from a keyed link, with CLR asserted (R112). -/
theorem State.enterRunning_linkOk {s : State} (hcause : s.link.cause = .none) (hclr : s.link.clr = true)
    (hw : s.encoder.waiting = none) (p : BytePoint) : (s.enterRunning p).LinkOk := by
  refine .of_running (by simp) ?_ (by simp) (by simp) ?_ ?_
  · rwa [State.enterRunning_link]
  · rwa [State.enterRunning_link]
  · rw [State.enterRunning_encoder, Encoder.fill_waiting, hw]
    exact nofun

/-- The key-up expiry of a link in KEYING: RUNNING with CLR asserted, else CLEAR_WAIT (R110). -/
theorem State.expireKeyUp_linkOk {s : State} (h : s.Quiet) (hcause : s.link.cause = .none) (ms : Nat) : (s.expireKeyUp ms).LinkOk := by
  unfold State.expireKeyUp
  split
  · rename_i hclr
    exact State.enterRunning_linkOk hcause hclr h.waiting _
  · have hquiet : { s with link := { s.link with
        state := .clearWait, keyUp := none, clearWait := some (s.params.clearWaitLimit * 10) } }.Quiet :=
      ⟨h.stop, h.pacing, h.first, h.cyc, h.onAir, h.phase, h.waiting⟩
    exact hquiet.linkOk nofun (by simp [hcause]) (by simp) (by simp)

/-- KEYING from a link at rest, DORMANT among them (R109, R120). -/
theorem State.enterKeying_linkOk {s : State} (h : s.LinkOk) (hrun : s.link.state ≠ .running) (hwait : s.link.state ≠ .clearWait) :
    s.enterKeying.LinkOk := by
  have hq := h.quiet hrun
  have hquiet : { s with encoder := Encoder.idle, link := { s.link with
      state := .keying, cause := .none, keyUp := some s.params.keyUpDelay } }.Quiet :=
    ⟨hq.stop, hq.pacing, hq.first, hq.cyc, hq.onAir, hq.phase, rfl⟩
  unfold State.enterKeying
  dsimp only
  split
  · exact State.expireKeyUp_linkOk hquiet rfl 0
  · exact hquiet.linkOk nofun (by simp) (by simp) (by simp [h.clearWait_none hwait])

theorem State.stopToHalted_linkOk {s : State} (h : s.LinkOk) (hstate : s.link.state ≠ .running) : s.stopToHalted.LinkOk := by
  have hq := h.quiet hstate
  have hquiet : s.stopToHalted.Quiet := ⟨hq.stop, hq.pacing, hq.first, hq.cyc, hq.onAir, hq.phase, rfl⟩
  exact hquiet.linkOk nofun (by simp [State.stopToHalted]) (by simp [State.stopToHalted]) (by simp [State.stopToHalted])

theorem State.cutLine_phase (s : State) : s.cutLine.engine.phase = .between := by
  unfold State.cutLine
  split
  · rfl
  · rename_i hclosed
    have hphase := State.cycleOpen_eq_false.mp (Bool.eq_false_of_not_eq_true hclosed)
    split
    · exact hphase
    · exact hphase

theorem State.clrFalls_linkOk {s : State} (h : s.LinkOk) : s.clrFalls.LinkOk := by
  unfold State.clrFalls
  dsimp only
  split
  · exact State.enterFault_linkOk (State.cutLine_phase _) nofun
  · rename_i hstate
    have hq := h.quiet hstate
    have hquiet : { s with link := { s.link with clr := false } }.Quiet :=
      ⟨hq.stop, hq.pacing, hq.first, hq.cyc, hq.onAir, hq.phase, hq.waiting⟩
    exact hquiet.linkOk hstate h.cause h.keyUp h.clearWait

/-! ### Bytes, frames and choices -/

/-- A byte-time puts on air only a frame that waited. -/
theorem State.passByte_onAir_some (s : State) (h : s.passByte.engine.onAir.isSome) :
    s.engine.onAir.isSome ∨ s.encoder.waiting.isSome := by
  obtain ⟨heng, -⟩ | ⟨w, -, hw, -, -⟩ := s.passByte_cases
  · exact .inl (heng ▸ h)
  · exact .inr (by simp [hw])

theorem State.passByte_waiting_some (s : State) (h : s.passByte.encoder.waiting.isSome) : s.encoder.waiting.isSome := by
  obtain ⟨-, hsame⟩ | ⟨w, -, hw, -, -⟩ := s.passByte_cases
  · exact hsame ▸ h
  · simp [hw]

theorem State.passByte_phase (s : State) : s.passByte.engine.phase = s.engine.phase := by
  obtain ⟨heng, -⟩ | ⟨w, -, -, heng, -⟩ := s.passByte_cases
  · rw [heng]
  · rw [heng]
    exact State.beginFrameAfter_phase _ _ _

/-- A byte-time lowers CYC and may start the frame that waits, which a stop point in RUNNING has called for. -/
theorem State.passByte_linkOk {s : State} (h : s.LinkOk) : s.passByte.cycFalls.LinkOk where
  cause := by simpa using h.cause
  stop := by simpa using h.stop
  keyUp := by simpa using h.keyUp
  clearWait := by simpa using h.clearWait
  pacing := by simpa using h.pacing
  first := by simpa using h.first
  cyc := nofun
  onAir hs := by
    rw [State.cycFalls_link, State.passByte_link]
    exact (s.passByte_onAir_some hs).elim h.onAir fun hw => h.stop (h.waiting hw)
  cycleOpen hs := by
    rw [State.cycFalls_link, State.passByte_link]
    refine h.cycleOpen ?_
    simpa only [State.cycleOpen, State.cycFalls_engine, State.passByte_phase] using hs
  clr := by simpa using h.clr
  waiting hs := by
    rw [State.cycFalls_link, State.passByte_link]
    exact h.waiting (s.passByte_waiting_some hs)

theorem byteTime_linkOk {s : State} (h : s.LinkOk) : (byteTime s).LinkOk := by
  unfold byteTime
  split
  · exact State.passByte_linkOk h
  · exact h

@[simp] theorem State.choose_link (s : State) : s.choose.link = s.link := by
  obtain ⟨h, -⟩ | ⟨source, e, -, h, -⟩ | ⟨source, e, -, h, -⟩ := s.choose_cases <;> simp [h]

/-- A choice leaves no frame waiting, where none waited. -/
theorem State.choose_waiting {s : State} (hw : s.encoder.waiting = none) : s.choose.encoder.waiting = none := by
  obtain ⟨h, -⟩ | ⟨source, e, -, h, -⟩ | ⟨source, e, -, h, -⟩ := s.choose_cases
  · rw [h]
    rfl
  · rw [h]
    unfold State.startFrame
    split
    · rfl
    · exact hw
  · rw [h]
    rfl

/-- No frame waits while a cycle is open (R89, R90). -/
theorem State.EngineOk.waiting_none {s : State} (h : s.EngineOk) (hopen : s.cycleOpen = true) : s.encoder.waiting = none := by
  cases hw : s.encoder.waiting with
  | none => rfl
  | some w =>
    obtain ⟨-, -, -, hphase⟩ := h.waiting w hw
    simp [State.cycleOpen, hphase] at hopen

theorem State.truncatedEnd_nil_waiting (s : State) : (s.truncatedEnd []).encoder.waiting = none := by
  unfold State.truncatedEnd
  rfl

theorem State.afterFrame_waiting (s : State) : s.afterFrame.encoder.waiting = none := by
  unfold State.afterFrame
  split
  · exact State.truncatedEnd_nil_waiting _
  · rfl

/-- A completed frame leaves the link RUNNING, CYC low behind it. -/
theorem State.afterFrame_linkOk {s u : State} (h : s.LinkOk) (hair : s.engine.onAir.isSome = true)
    (hlink : u.link = { s.link with cyc := false }) : u.afterFrame.LinkOk := by
  have hstate := h.onAir hair
  refine h.of_still_running hstate ?_ ?_ ?_ ?_ ?_ ?_
  · rw [State.afterFrame_link, hlink]
    exact hstate
  · rw [State.afterFrame_link, hlink]
  · rw [State.afterFrame_link, hlink]
  · rw [State.afterFrame_link, hlink]
  · rw [State.afterFrame_link, hlink]
  · simp [State.afterFrame_waiting]

/-- The frame that ends next does so in RUNNING, and one that opens no cycle between cycles. -/
theorem State.nextEnding_running {s : State} (he : s.EngineOk) (h : s.LinkOk) {f : AirFrame} (hnext : s.nextEnding = some f)
    (hf : f.inCycle = false) : s.link.state = .running ∧ s.engine.phase = .between := by
  unfold State.nextEnding at hnext
  cases hair : s.engine.onAir with
  | some g =>
    simp only [hair, Option.some.injEq] at hnext
    subst hnext
    exact ⟨h.onAir (by simp [hair]), State.cycleOpen_eq_false.mp ((he.frame g hair).symm.trans hf)⟩
  | none =>
    simp only [hair, Option.map_eq_some_iff] at hnext
    obtain ⟨w, hw, -⟩ := hnext
    obtain ⟨-, -, -, hphase⟩ := he.waiting w hw
    exact ⟨h.stop (h.waiting (by simp [hw])), hphase⟩

theorem State.powerOn_linkOk (mem : Memory) (clr : Bool) (free : Nat) (q : List Instr) : (State.powerOn mem clr free q).LinkOk :=
  (State.Quiet.mk rfl rfl rfl rfl rfl rfl rfl).linkOk nofun (by simp [State.powerOn, Link.powerOn]) (by simp [State.powerOn, Link.powerOn])
    (by simp [State.powerOn, Link.powerOn])

theorem State.Move.keeps_link {s u : State} {i : Option Instr} (hm : s.Move i u) (he : s.EngineOk) (h : s.LinkOk) : u.LinkOk := by
  cases hm with
  | byteTime => exact byteTime_linkOk h
  | cycPulseEnds hcyc =>
    have hkeyed : s.link.state.keyed = true := by rw [h.cyc hcyc]; rfl
    rw [Machine.byteTime, if_pos hkeyed]
    exact State.passByte_linkOk h
  | powerOnReset => exact State.powerOn_linkOk _ _ _ _
  | powerOnInitialisation => exact State.powerOn_linkOk _ _ _ _
  | clear => exact h.of_same rfl nofun nofun nofun
  | stopHalts _ hstate => exact State.stopToHalted_linkOk h hstate
  | stopWaits _ point hstate hpoint => exact h.of_still_running hstate hstate rfl rfl rfl rfl fun _ => hpoint
  | stopAborts _ hstate =>
    exact h.of_still_running hstate (by simpa [State.withStop] using hstate) (by simp [State.withStop]) (by simp [State.withStop])
      (by simp [State.withStop]) (by simp [State.withStop]) fun _ => by simp [State.withStop]
  | stopAbortsEnd _ hstate =>
    exact h.of_still_running hstate (by simpa [State.withStop] using hstate) (by simp [State.withStop]) (by simp [State.withStop])
      (by simp [State.withStop]) (by simp [State.withStop]) fun _ => by simp [State.withStop]
  | stopTruncates _ hstate =>
    exact h.of_still_running hstate (by simpa [State.withStop] using hstate) (by simp [State.withStop]) (by simp [State.withStop])
      (by simp [State.withStop]) (by simp [State.withStop]) fun _ => by simp [State.withStop]
  | stopHaltsNow _ hstate hopen => exact State.enterHalted_linkOk h hstate (State.cycleOpen_eq_false.mp hopen)
  | @commit slot n x confirm e =>
    have hinstalled : (s.install n x confirm e).LinkOk := h.of_same rfl id id id
    unfold State.wake
    split
    · rename_i hdormant
      have hdormant : s.link.state = .dormant := hdormant
      exact State.enterKeying_linkOk hinstalled (by simp [hdormant]) (by simp [hdormant])
    · exact hinstalled
  | start _ hstate =>
    obtain hstate | hstate := hstate
    · exact State.enterKeying_linkOk h (by simp [hstate]) (by simp [hstate])
    · exact State.enterKeying_linkOk h (by simp [hstate]) (by simp [hstate])
  | keyUpExpires hms =>
    have hstate := h.keyUp_state hms
    exact State.expireKeyUp_linkOk (h.quiet (by simp [hstate])) (h.cause_none (by simp [hstate])) _
  | clrEndsWait hstate =>
    exact State.enterRunning_linkOk (s := { s with link := { s.link with clr := true }, freeCount := s.freeCount + 1 })
      (h.cause_none (by simp [hstate])) rfl (h.quiet (by simp [hstate])).waiting _
  | clrRises =>
    exact ⟨h.cause, h.stop, h.keyUp, h.clearWait, h.pacing, h.first, h.cyc, h.onAir, h.cycleOpen, fun _ => rfl, h.waiting⟩
  | clearWaitExpires hms =>
    exact State.enterFault_linkOk (h.quiet (by simp [h.clearWait_state hms])).phase nofun
  | clrFalls => exact State.clrFalls_linkOk h
  | pacingExpires hms =>
    have hstate := h.pacing (by simp [hms])
    exact h.of_still_running hstate (by simpa using hstate) (by simp) (by simp) (by simp) (by simp) (by simpa using h.waiting)
  | cycleStarts hallowed =>
    obtain ⟨-, hstate, -⟩ := s.cycleAllowed_iff.mp hallowed
    exact h.of_still_running hstate hstate rfl rfl rfl rfl nofun
  | choiceEnds hallowed =>
    obtain ⟨-, hstate, -⟩ := s.choiceAllowed_iff.mp hallowed
    exact h.of_still_running hstate (by simpa using hstate) (by simp) (by simp) (by simp) (by simp)
      (by simp [State.truncatedEnd_nil_waiting])
  | choice hallowed =>
    obtain ⟨hopen, hstate, -⟩ := s.choiceAllowed_iff.mp hallowed
    refine h.of_still_running hstate (by simpa using hstate) (by simp) (by simp) (by simp) (by simp) ?_
    rw [State.choose_waiting (by simpa using he.waiting_none hopen)]
    exact nofun
  | cycleStartEnds hair => exact State.afterFrame_linkOk h (by simp [hair]) rfl
  | recordEnds hair => exact State.afterFrame_linkOk h (by simp [hair]) rfl
  | withdrawalEnds hair => exact State.afterFrame_linkOk h (by simp [hair]) rfl
  | cycleEndHalts hnext =>
    obtain ⟨hstate, hphase⟩ := State.nextEnding_running he h hnext rfl
    exact State.enterHalted_linkOk (s := s.sendToFrameEnd) (h.of_still_running hstate hstate rfl rfl rfl rfl h.waiting) hstate hphase
  | cycleEndSleeps hnext =>
    obtain ⟨hstate, hphase⟩ := State.nextEnding_running he h hnext rfl
    exact State.enterDormant_linkOk (s := s.sendToFrameEnd) (h.of_still_running hstate hstate rfl rfl rfl rfl h.waiting) hstate hphase
  | cycleEndContinues hnext =>
    obtain ⟨hstate, -⟩ := State.nextEnding_running he h hnext rfl
    exact h.of_still_running hstate hstate rfl rfl rfl rfl nofun
  | abortEnds hnext =>
    obtain ⟨hstate, hphase⟩ := State.nextEnding_running he h hnext rfl
    exact State.enterHalted_linkOk (s := s.sendToFrameEnd) (h.of_still_running hstate hstate rfl rfl rfl rfl h.waiting) hstate hphase
  | retire => exact h.of_same rfl id id id
  | _ => exact h.of_same (by simp) (by simp) (by simp [State.cycleOpen]) (by simp)

end Sys2Proof.Machine

/-! CLEAR only at rest (R157), CYC on the marker of a Cycle Start frame (R108, R129), and with them the link's part of every step. -/

namespace Sys2Proof.Machine

/-! ## CYC -/

/-- With CYC low the promise asks that no Cycle Start frame stands at its marker. -/
theorem State.CycOk.of_low {u : State} (hcyc : u.link.cyc = false)
    (hair : ∀ f, u.engine.onAir = some (.cycleStart f) → u.encoder.place ≠ 0) : u.CycOk where
  high h := by simp [hcyc] at h
  marker f hf hplace := absurd hplace (hair f hf)

/-- With CYC low and no frame of a cycle's start on air. -/
theorem State.CycOk.of_quiet {u : State} (hcyc : u.link.cyc = false) (hair : u.engine.onAir = none) : u.CycOk :=
  .of_low hcyc (by simp [hair])

/-- The promise looks at CYC, the frame on air and where the encoder stands. -/
theorem State.CycOk.of_still {s u : State} (h : s.CycOk) (hcyc : u.link.cyc = s.link.cyc) (hair : u.engine.onAir = s.engine.onAir)
    (hplace : u.encoder.place = s.encoder.place) (hpair : u.encoder.pairFirst = s.encoder.pairFirst)
    (hw : u.encoder.waiting = s.encoder.waiting) : u.CycOk where
  high := by
    rw [hcyc, hair, hplace, hpair, hw]
    exact h.high
  marker := by
    rw [hcyc, hair, hplace, hpair]
    exact h.marker

theorem AirFrame.byteLength_pos (f : AirFrame) : 0 < f.byteLength := by
  cases f <;> simp [AirFrame.byteLength]

/-- While CYC is high the byte on the line, and all there is to finish, is the marker (R90, R129). -/
theorem State.CycOk.bytesToFinish_eq {s : State} (h : s.CycOk) (hcyc : s.link.cyc = true) : s.bytesToFinish = [Machine.marker] := by
  unfold State.bytesToFinish
  obtain ⟨⟨f, hair⟩, hplace, hpair⟩ | ⟨hair, f, hw⟩ := h.high hcyc
  · simp [hair, hpair, Encoder.current, hplace, AirFrame.byteAt, AirFrame.byteLength_pos]
  · simp [hair, hw]

/-- A stop point's frame, behind the bytes to finish, keeps the promise: CYC stays high only for the marker before it. -/
theorem State.CycOk.beginFrameAfter {s u : State} (h : s.CycOk) (hcyc : u.link.cyc = s.link.cyc) {f : AirFrame}
    (hf : f.inCycle = false) : (u.beginFrameAfter s.bytesToFinish f).CycOk where
  high hhigh := by
    rw [State.beginFrameAfter_link, hcyc] at hhigh
    rw [h.bytesToFinish_eq hhigh]
    exact .inr ⟨rfl, f, rfl⟩
  marker g hg := by
    rw [State.beginFrameAfter_onAir] at hg
    split at hg
    · cases hg
      cases hf
    · cases hg

theorem State.Quiet.cycOk {s u : State} (h : s.Quiet) (hcyc : u.link.cyc = s.link.cyc) (hair : u.engine.onAir = s.engine.onAir) :
    u.CycOk :=
  .of_quiet (hcyc.trans h.cyc) (hair.trans h.onAir)

@[simp] theorem State.expireKeyUp_cyc (s : State) (ms : Nat) : (s.expireKeyUp ms).link.cyc = s.link.cyc := by
  unfold State.expireKeyUp
  split
  · rw [State.enterRunning_link]
  · rfl

@[simp] theorem State.enterKeying_cyc (s : State) : s.enterKeying.link.cyc = s.link.cyc := by
  unfold State.enterKeying
  dsimp only
  split
  · rw [State.expireKeyUp_cyc]
  · rfl

/-- A fill byte to be finished leaves where the encoder stands. -/
@[simp] theorem Encoder.fill_place (c : Prop) [Decidable c] (e : Encoder) (gap : Nat) :
    (if c then e else { e with gap := gap }).place = e.place := by
  split <;> rfl

@[simp] theorem Encoder.fill_pairFirst (c : Prop) [Decidable c] (e : Encoder) (gap : Nat) :
    (if c then e else { e with gap := gap }).pairFirst = e.pairFirst := by
  split <;> rfl

@[simp] theorem State.expirePacing_place (s : State) (ms : Nat) : (s.expirePacing ms).encoder.place = s.encoder.place := by
  unfold State.expirePacing
  dsimp only
  split <;> simp

@[simp] theorem State.expirePacing_pairFirst (s : State) (ms : Nat) :
    (s.expirePacing ms).encoder.pairFirst = s.encoder.pairFirst := by
  unfold State.expirePacing
  dsimp only
  split <;> simp

/-- A byte behind its marker a Cycle Start frame no longer stands at it. -/
theorem Encoder.advance_place {m : Memory} {f : AirFrame} {e : Encoder} (h : e.place = 0 → e.pairFirst = false) :
    (e.advance m f).place ≠ 0 := by
  unfold Encoder.advance
  split
  · rename_i hpair
    exact fun hplace => by simp [h hplace] at hpair
  · split
    · simp
    · exact f.byteLength_pos.ne'

theorem State.passByte_cycOk {s : State} (he : s.EngineOk) (h : s.CycOk) : s.passByte.cycFalls.CycOk := by
  refine .of_low rfl fun f hf => ?_
  rw [State.cycFalls_engine] at hf
  rw [State.cycFalls_encoder]
  unfold State.passByte at hf ⊢
  split at hf
  · rename_i g hair
    rw [hair] at hf
    exact Encoder.advance_place fun hplace => (h.marker f (hair.trans hf) hplace).2
  · rename_i hair
    split at hf
    · rename_i w hw
      obtain ⟨-, hframe, -, -⟩ := he.waiting w hw
      unfold State.finishLead at hf
      rw [State.beginFrameAfter_onAir] at hf
      split at hf
      · rw [Option.some.inj hf] at hframe
        cases hframe
      · cases hf
    · rw [hair] at hf
      cases hf

/-- Where a frame is chosen CYC is low: the marker of a Cycle Start frame is behind. -/
theorem State.CycOk.cyc_of_choiceAllowed {s : State} (he : s.EngineOk) (h : s.CycOk) (hallowed : s.choiceAllowed = true) :
    s.link.cyc = false := by
  obtain ⟨hopen, -, hair⟩ := s.choiceAllowed_iff.mp hallowed
  refine Bool.eq_false_of_not_eq_true fun hcyc => ?_
  obtain ⟨⟨f, hf⟩, -⟩ | ⟨-, f, hw⟩ := h.high hcyc
  · simp [hair] at hf
  · simp [he.waiting_none hopen] at hw

/-- No choice puts a Cycle Start frame on air. -/
theorem State.choose_onAir {s : State} (hair : s.engine.onAir = none) (f : CycleStartFrame) :
    s.choose.engine.onAir ≠ some (.cycleStart f) := by
  obtain ⟨h, -⟩ | ⟨source, e, -, h, -⟩ | ⟨source, e, -, h, -⟩ := s.choose_cases
  · rw [h]
    exact nofun
  · rw [h]
    unfold State.startFrame
    split
    · rename_i g hg
      intro hc
      obtain rfl := Option.some.inj hc
      unfold Entry.frame at hg
      split at hg
      all_goals cases hg
    · simp [hair]
  · rw [h]
    exact nofun

theorem State.afterFrame_onAir (s : State) (f : CycleStartFrame) : s.afterFrame.engine.onAir ≠ some (.cycleStart f) := by
  unfold State.afterFrame
  split
  all_goals exact nofun

theorem State.afterFrame_cycOk {u : State} (hcyc : u.link.cyc = false) : u.afterFrame.CycOk :=
  .of_low (by simpa using hcyc) fun f hf => absurd hf (u.afterFrame_onAir f)

theorem State.startCycle_cycOk (s : State) : s.startCycle.CycOk where
  high _ := .inl ⟨⟨_, rfl⟩, rfl, rfl⟩
  marker _ _ _ := ⟨rfl, rfl⟩

/-! ## CLEAR at rest -/

theorem LinkState.atRest_ne_running {l : LinkState} (h : l.atRest = true) : l ≠ .running := by
  rintro rfl
  cases h

/-- A link at rest stays so while a CLEAR runs: no START is taken (R147, R157). -/
theorem State.Move.keeps_rest {s u : State} {i : Option Instr} (hm : s.Move i u) (he : s.EngineOk) (h : s.LinkOk)
    (htask : s.port.task = some .clearing) (hrest : s.link.state.atRest = true) : u.link.state.atRest = true := by
  have hrun := LinkState.atRest_ne_running hrest
  cases hm with
  | byteTime =>
    rw [byteTime_link]
    split
    all_goals exact hrest
  | cycPulseEnds hcyc => exact absurd (h.cyc hcyc) hrun
  | powerOnReset => rfl
  | powerOnInitialisation => rfl
  | stopHalts => rfl
  | stopWaits _ _ hstate => exact absurd hstate hrun
  | stopAborts _ hstate => exact absurd hstate hrun
  | stopAbortsEnd _ hstate => exact absurd hstate hrun
  | stopTruncates _ hstate => exact absurd hstate hrun
  | stopHaltsNow => rfl
  | commit hruns => exact absurd (hruns.symm.trans htask) nofun
  | start hruns => exact absurd (hruns.symm.trans htask) nofun
  | keyUpExpires hms =>
    rw [h.keyUp_state hms] at hrest
    cases hrest
  | clrEndsWait hstate =>
    rw [hstate] at hrest
    cases hrest
  | clearWaitExpires => rfl
  | clrFalls =>
    unfold State.clrFalls
    dsimp only
    rw [if_neg hrun]
    exact hrest
  | pacingExpires hms => exact absurd (h.pacing (by simp [hms])) hrun
  | cycleStarts hallowed =>
    obtain ⟨-, hstate, -⟩ := s.cycleAllowed_iff.mp hallowed
    exact absurd hstate hrun
  | cycleEndHalts => rfl
  | cycleEndSleeps hnext => exact absurd (State.nextEnding_running he h hnext rfl).1 hrun
  | cycleEndContinues => exact hrest
  | abortEnds => rfl
  | _ => simpa using hrest

/-- Every move keeps CYC on the marker of a Cycle Start frame. -/
theorem State.Move.keeps_cyc {s u : State} {i : Option Instr} (hm : s.Move i u) (he : s.EngineOk) (hl : s.LinkOk)
    (hclear : s.clearOk) (h : s.CycOk) : u.CycOk := by
  cases hm with
  | byteTime =>
    unfold Machine.byteTime
    split
    · exact State.passByte_cycOk he h
    · exact h
  | cycPulseEnds hcyc =>
    have hkeyed : s.link.state.keyed = true := by rw [hl.cyc hcyc]; rfl
    rw [Machine.byteTime, if_pos hkeyed]
    exact State.passByte_cycOk he h
  | powerOnReset => exact .of_quiet rfl rfl
  | powerOnInitialisation => exact .of_quiet rfl rfl
  | stopHalts _ hstate => exact (hl.quiet hstate).cycOk rfl rfl
  | stopAborts =>
    refine h.beginFrameAfter ?_ ?_
    all_goals rfl
  | stopAbortsEnd =>
    refine h.beginFrameAfter ?_ ?_
    all_goals rfl
  | stopTruncates =>
    refine h.beginFrameAfter ?_ ?_
    all_goals rfl
  | stopHaltsNow => exact .of_quiet rfl rfl
  | @commit slot n x confirm e =>
    have hinstalled : (s.install n x confirm e).CycOk := h.of_still rfl rfl rfl rfl rfl
    unfold State.wake
    split
    · rename_i hdormant
      have hdormant : s.link.state = .dormant := hdormant
      exact (hl.quiet (by simp [hdormant])).cycOk (State.enterKeying_cyc _) (by rw [State.enterKeying_engine]; rfl)
    · exact hinstalled
  | start _ hstate =>
    have hrun : s.link.state ≠ .running := by
      obtain hstate | hstate := hstate
      all_goals simp [hstate]
    exact (hl.quiet hrun).cycOk (by simp) (by simp)
  | clear htask => exact .of_quiet (hl.quiet (LinkState.atRest_ne_running (hclear htask))).cyc rfl
  | keyUpExpires hms => exact (hl.quiet (by simp [hl.keyUp_state hms])).cycOk (by simp) (by simp)
  | clrEndsWait hstate => exact (hl.quiet (by simp [hstate])).cycOk (by simp) (by simp)
  | clrRises => exact h.of_still rfl rfl rfl rfl rfl
  | clearWaitExpires => exact .of_quiet rfl rfl
  | clrFalls =>
    unfold State.clrFalls
    dsimp only
    split
    · exact .of_quiet rfl rfl
    · exact h.of_still rfl rfl rfl rfl rfl
  | cycleStarts => exact State.startCycle_cycOk _
  | choiceEnds hallowed =>
    refine .of_low ?_ fun f hf => absurd hf nofun
    simpa using h.cyc_of_choiceAllowed he hallowed
  | choice hallowed =>
    obtain ⟨-, -, hair⟩ := s.choiceAllowed_iff.mp hallowed
    refine .of_low ?_ fun f hf => absurd hf (State.choose_onAir ?_ f)
    · simpa using h.cyc_of_choiceAllowed he hallowed
    · rw [State.settleQueue_onAir]
      exact hair
  | cycleStartEnds => exact State.afterFrame_cycOk rfl
  | recordEnds => exact State.afterFrame_cycOk rfl
  | withdrawalEnds => exact State.afterFrame_cycOk rfl
  | cycleEndHalts => exact .of_quiet rfl rfl
  | cycleEndSleeps => exact .of_quiet rfl rfl
  | cycleEndContinues => exact .of_quiet rfl rfl
  | abortEnds => exact .of_quiet rfl rfl
  | retire => exact h.of_still rfl rfl rfl rfl rfl
  | pacingExpires => exact h.of_still (by simp) (by simp) (by simp) (by simp) (by simp)
  | _ => exact h.of_still rfl rfl rfl rfl rfl

theorem State.CycOk.withPort {s : State} (h : s.CycOk) (r : Bool) (p : Port) (q : List Instr) : (s.withPort r p q).CycOk :=
  h.of_still rfl rfl rfl rfl rfl

end Sys2Proof.Machine

namespace Sys2Proof.Proofs

open Sys2Proof.Machine

/-- Settles O57: of a step's move, the three promises of the link. -/
theorem stepKeepsTheLink : Obligations.StepKeepsTheLink := by
  unfold Obligations.StepKeepsTheLink
  intro s t hengine hlink hstep
  obtain ⟨q, i, u, r, p, q', hmove, rfl, htask⟩ := step_move hstep
  have hengine' := hengine.withPort s.rstn s.port q
  have hlink' := hlink.withPort s.rstn s.port q
  refine ⟨(hmove.keeps_link hengine' hlink').withPort r p q', fun hclear => ⟨fun hclearing => ?_, fun hcyc => ?_⟩⟩
  · obtain hbefore | ⟨hrest, hsame⟩ := htask hclearing
    · exact hmove.keeps_rest hengine' hlink' hbefore (hclear hbefore)
    · exact (congrArg (fun l => l.state.atRest) hsame).trans hrest
  · exact (hmove.keeps_cyc hengine' hlink' hclear (hcyc.withPort s.rstn s.port q)).withPort r p q'

end Sys2Proof.Proofs

/-! What only some rows change: the queue (no row), the link state, slots, parameters and payload bytes, the generation and the cycle
number (R21, R45, R52, R69, R107, R156). -/

namespace Sys2Proof.Machine

/-! ## What every choice and every fall of CLR leaves -/

@[simp] theorem State.choose_pending (s : State) : s.choose.pending = s.pending := by
  obtain ⟨h, -⟩ | ⟨source, e, -, h, -⟩ | ⟨source, e, -, h, -⟩ := s.choose_cases <;> simp [h]

@[simp] theorem State.clrFalls_pending (s : State) : s.clrFalls.pending = s.pending := by
  unfold State.clrFalls
  dsimp only
  split <;> simp

/-- The two numbers of the engine that the rows count (R45, R72). -/
def Engine.numbers (en : Engine) : Word16 × Word16 := (en.cycle, en.generation)

@[simp] theorem State.startFrame_numbers (s : State) (source : Source) (e : Entry) :
    (s.startFrame source e).engine.numbers = s.engine.numbers := by
  unfold State.startFrame
  cases source <;> split <;> rfl

@[simp] theorem State.choose_numbers (s : State) : s.choose.engine.numbers = s.engine.numbers := by
  obtain ⟨h, -⟩ | ⟨source, e, -, h, -⟩ | ⟨source, e, -, h, -⟩ := s.choose_cases
  · rw [h]
    rfl
  · rw [h, State.startFrame_numbers]
  · rw [h]
    rfl

@[simp] theorem State.settleQueue_numbers (s : State) : s.settleQueue.engine.numbers = s.engine.numbers := by
  unfold State.settleQueue
  repeat' split
  all_goals rfl

@[simp] theorem State.beginFrameAfter_numbers (s : State) (lead : List Byte) (f : AirFrame) :
    (s.beginFrameAfter lead f).engine.numbers = s.engine.numbers := by
  rw [State.beginFrameAfter_engine]
  rfl

@[simp] theorem State.truncatedEnd_numbers (s : State) (lead : List Byte) : (s.truncatedEnd lead).engine.numbers = s.engine.numbers :=
  State.beginFrameAfter_numbers _ _ _

@[simp] theorem State.afterFrame_numbers (s : State) : s.afterFrame.engine.numbers = s.engine.numbers := by
  unfold State.afterFrame
  split
  · exact State.truncatedEnd_numbers _ _
  · rfl

@[simp] theorem State.passByte_numbers (s : State) : s.passByte.engine.numbers = s.engine.numbers := by
  obtain ⟨heng, -⟩ | ⟨w, -, -, heng, -⟩ := s.passByte_cases
  · rw [heng]
  · rw [heng]
    exact State.beginFrameAfter_numbers _ _ _

@[simp] theorem byteTime_numbers (s : State) : (byteTime s).engine.numbers = s.engine.numbers := by
  unfold byteTime
  split
  · exact s.passByte_numbers
  · rfl

@[simp] theorem State.clrFalls_numbers (s : State) : s.clrFalls.engine.numbers = s.engine.numbers := by
  unfold State.clrFalls State.cutLine
  dsimp only
  repeat' split
  all_goals rfl

/-! ## What the moves leave -/

variable {s u : State} {i : Instr}

theorem State.Move.pending {i : Option Instr} (h : s.Move i u) : u.pending = s.pending := by
  cases h with
  | powerOnReset => rfl
  | powerOnInitialisation => rfl
  | _ => simp [State.withStop]

/-- Slots change at completions alone (R21, R52). -/
theorem State.Move.slots (h : s.Move (some i) u) (hpower : i ≠ .powerOnReset) (hpower' : i ≠ .powerOnInitialisation)
    (hcommand : i ≠ .commandCompletion) (hclear : i ≠ .clearCompletion) : u.slots = s.slots := by
  cases h with
  | powerOnReset => exact (hpower rfl).elim
  | powerOnInitialisation => exact (hpower' rfl).elim
  | clear => exact (hclear rfl).elim
  | openSlot => exact (hcommand rfl).elim
  | write => exact (hcommand rfl).elim
  | commit => exact (hcommand rfl).elim
  | cancel => exact (hcommand rfl).elim
  | _ => simp [State.withStop]

/-- Parameters and payload bytes change at a command's completion alone (R21, R107, R156). -/
theorem State.Move.params_mem (h : s.Move (some i) u) (hpower : i ≠ .powerOnReset) (hpower' : i ≠ .powerOnInitialisation)
    (hcommand : i ≠ .commandCompletion) : u.params = s.params ∧ u.pool.mem = s.pool.mem := by
  cases h with
  | powerOnReset => exact (hpower rfl).elim
  | powerOnInitialisation => exact (hpower' rfl).elim
  | openSlot => exact (hcommand rfl).elim
  | write => exact (hcommand rfl).elim
  | feed => exact (hcommand rfl).elim
  | configure => exact (hcommand rfl).elim
  | clear => exact ⟨rfl, by simp [State.clearStore, Pool.rebuilt]⟩
  | _ => simp [State.withStop]

/-- The generation and the cycle number move at the rows that count them alone (R45, R59, R69, R72). -/
def NumbersMove (s : State) (i : Instr) (en : Engine) : Prop :=
  (en.cycle = s.engine.cycle ∨ i = .cycleStart ∧ en.cycle = s.engine.cycle + 1#16) ∧
    (en.generation = s.engine.generation ∨ i = .clearCompletion ∧ en.generation = 0#16 ∨
      en.generation = s.engine.generation + 1#16 ∧
        (i = .retireGroupVisit ∨ i = .commandCompletion ∧ ((∃ n o, s.Runs (.commit n o)) ∨ ∃ k, s.Runs (.retire k))))

theorem NumbersMove.of_numbers {en : Engine} (h : en.numbers = s.engine.numbers) : NumbersMove s i en :=
  ⟨.inl (congrArg Prod.fst h), .inl (congrArg Prod.snd h)⟩

theorem State.Move.numbers (h : s.Move (some i) u) (hpower : i ≠ .powerOnReset) (hpower' : i ≠ .powerOnInitialisation) :
    NumbersMove s i u.engine := by
  cases h with
  | powerOnReset => exact (hpower rfl).elim
  | powerOnInitialisation => exact (hpower' rfl).elim
  | clear => exact ⟨.inl rfl, .inr (.inl ⟨rfl, rfl⟩)⟩
  | cycleStarts => exact ⟨.inr ⟨rfl, rfl⟩, .inl rfl⟩
  | commit hruns =>
    rw [State.wake_engine]
    exact ⟨.inl rfl, .inr (.inr ⟨rfl, .inr ⟨rfl, .inl ⟨_, _, hruns⟩⟩⟩)⟩
  | retire hi =>
    refine ⟨.inl rfl, .inr (.inr ⟨rfl, ?_⟩)⟩
    exact hi.imp_right fun ⟨hcompletion, hruns⟩ => ⟨hcompletion, .inr hruns⟩
  | byteTime => exact .of_numbers (byteTime_numbers s)
  | cycPulseEnds => exact .of_numbers (byteTime_numbers s)
  | stopAborts => exact .of_numbers (State.beginFrameAfter_numbers _ _ _)
  | stopAbortsEnd => exact .of_numbers (State.beginFrameAfter_numbers _ _ _)
  | stopTruncates => exact .of_numbers (State.truncatedEnd_numbers _ _)
  | start => exact .of_numbers (congrArg Engine.numbers s.enterKeying_engine)
  | keyUpExpires => exact .of_numbers (congrArg Engine.numbers (s.expireKeyUp_engine _))
  | pacingExpires => exact .of_numbers (congrArg Engine.numbers (s.expirePacing_engine _))
  | clrEndsWait => exact .of_numbers (congrArg Engine.numbers (State.enterRunning_engine _ _))
  | clrFalls => exact .of_numbers s.clrFalls_numbers
  | choice => exact .of_numbers (by rw [State.choose_numbers, State.settleQueue_numbers, State.sendGap_engine])
  | choiceEnds => exact .of_numbers (State.truncatedEnd_numbers _ _)
  | cycleStartEnds => exact .of_numbers (State.afterFrame_numbers _)
  | recordEnds => exact .of_numbers (State.afterFrame_numbers _)
  | withdrawalEnds => exact .of_numbers (State.afterFrame_numbers _)
  | _ => exact .of_numbers rfl

/-! ## The link's state -/

theorem State.expireKeyUp_state (s : State) (ms : Nat) :
    (s.expireKeyUp ms).link.state = if s.link.clr then LinkState.running else .clearWait := by
  unfold State.expireKeyUp
  split
  · rw [State.enterRunning_state]
  · rfl

/-- KEYING, or what its expiry at the same instant gives, is keyed (R108, R110). -/
theorem State.enterKeying_keyed (s : State) : s.enterKeying.link.state.keyed = true := by
  unfold State.enterKeying
  dsimp only
  split
  · rw [State.expireKeyUp_state]
    split <;> rfl
  · rfl

/-- The frame that ends next does so in RUNNING. -/
theorem State.LinkOk.running_of_nextEnding (h : s.LinkOk) {f : AirFrame} (hnext : s.nextEnding = some f) : s.link.state = .running := by
  unfold State.nextEnding at hnext
  cases hair : s.engine.onAir with
  | some g => exact h.onAir (by simp [hair])
  | none =>
    simp only [hair, Option.map_eq_some_iff] at hnext
    obtain ⟨w, hw, -⟩ := hnext
    exact h.stop (h.waiting (by simp [hw]))

/-- The link's state before and after a row, by the causes the link state table gives (R107). -/
inductive LinkChange (s : State) (i : Instr) (t : Link) : Prop
  | same (h : t.state = s.link.state)
  | start (h : s.link.state = .halted ∨ s.link.state = .fault) (hi : i = .commandCompletion) (hruns : s.Runs .start)
      (ht : t.state.keyed = true)
  | wake (h : s.link.state = .dormant) (hi : i = .commandCompletion) (hruns : ∃ n o, s.Runs (.commit n o)) (ht : t.state.keyed = true)
  | keyUp (h : s.link.state = .keying) (hi : i = .keyUpTimerExpiry)
      (ht : t.state = if s.link.clr then LinkState.running else LinkState.clearWait)
  | clr (h : s.link.state = .clearWait) (hi : i = .clrAsserted) (ht : t.state = .running)
  | notClear (h : s.link.state = .clearWait) (hi : i = .clearWaitTimerExpiry) (ht : t.state = .fault) (hc : t.cause = .notClear)
  | linkLost (h : s.link.state = .running) (hi : i = .lossOfClr ∨ i = .clrDeassertion) (ht : t.state = .fault)
      (hc : t.cause = .linkLost)
  | cycleEnd (h : s.link.state = .running) (hi : i = .cycleEndFrameEnd) (ht : t.state = .halted ∨ t.state = .dormant)
  | abort (h : s.link.state = .running) (hi : i = .abortFrameEnd) (ht : t.state = .halted)
  | stop (h : s.link.state ≠ .halted) (hi : isStop (some i)) (ht : t.state = .halted)

theorem State.Move.linkChange (hm : s.Move (some i) u) (h : s.LinkOk) (hpower : i ≠ .powerOnReset)
    (hpower' : i ≠ .powerOnInitialisation) : LinkChange s i u.link := by
  cases hm with
  | powerOnReset => exact (hpower rfl).elim
  | powerOnInitialisation => exact (hpower' rfl).elim
  | stopHalts hi =>
    by_cases hhalted : s.link.state = .halted
    · exact .same hhalted.symm
    · exact .stop hhalted hi rfl
  | stopHaltsNow hi hstate => exact .stop (by simp [hstate]) hi rfl
  | commit hruns =>
    unfold State.wake
    split
    · rename_i hdormant
      exact .wake hdormant rfl ⟨_, _, hruns⟩ (State.enterKeying_keyed _)
    · exact .same rfl
  | start hruns hstate => exact .start hstate rfl hruns s.enterKeying_keyed
  | keyUpExpires hms => exact .keyUp (h.keyUp_state hms) rfl (s.expireKeyUp_state _)
  | clrEndsWait hstate => exact .clr hstate rfl (State.enterRunning_state _ _)
  | clearWaitExpires hms => exact .notClear (h.clearWait_state hms) rfl rfl rfl
  | clrFalls hi =>
    unfold State.clrFalls
    dsimp only
    split
    · rename_i hrun
      exact .linkLost hrun hi rfl rfl
    · exact .same rfl
  | cycleEndHalts hnext => exact .cycleEnd (h.running_of_nextEnding hnext) rfl (.inl rfl)
  | cycleEndSleeps hnext => exact .cycleEnd (h.running_of_nextEnding hnext) rfl (.inr rfl)
  | abortEnds hnext => exact .abort (h.running_of_nextEnding hnext) rfl rfl
  | byteTime =>
    rw [byteTime_link]
    split
    all_goals exact .same rfl
  | cycPulseEnds =>
    rw [State.cycFalls_link, byteTime_link]
    split
    all_goals exact .same rfl
  | retire => exact .same rfl
  | cycleStarts => exact .same rfl
  | _ => exact .same (by simp [State.withStop])

end Sys2Proof.Machine

namespace Sys2Proof.Proofs

open Sys2Proof.Machine

/-- Settles O3: every row gives one of the moves, and no move touches the queue. -/
theorem everyRowAnswersAndLeavesTheQueue : Obligations.EveryRowAnswersAndLeavesTheQueue := by
  unfold Obligations.EveryRowAnswersAndLeavesTheQueue
  intro i s
  obtain ⟨u, r, p, hmove, hexec, -⟩ := exec_reaches i s
  exact ⟨_, hexec, hmove.pending⟩

/-- Settles O47. -/
theorem linkStateChangesAsTheTable : Obligations.LinkStateChangesAsTheTable := by
  unfold Obligations.LinkStateChangesAsTheTable
  intro i s hlink hpower hpower'
  obtain ⟨u, r, p, hmove, hexec, -⟩ := exec_reaches i s
  refine ⟨_, hexec, ?_⟩
  cases hmove.linkChange hlink hpower hpower' with
  | same h => exact .inl h
  | start h hi hruns ht => exact .inr (.inl ⟨h, hi, hruns, ht⟩)
  | wake h hi hruns ht => exact .inr (.inr (.inl ⟨h, hi, hruns, ht⟩))
  | keyUp h hi ht => exact .inr (.inr (.inr (.inl ⟨h, hi, ht⟩)))
  | clr h hi ht => exact .inr (.inr (.inr (.inr (.inl ⟨h, hi, ht⟩))))
  | notClear h hi ht hc => exact .inr (.inr (.inr (.inr (.inr (.inl ⟨h, hi, ht, hc⟩)))))
  | linkLost h hi ht hc => exact .inr (.inr (.inr (.inr (.inr (.inr (.inl ⟨h, hi, ht, hc⟩))))))
  | cycleEnd h hi ht => exact .inr (.inr (.inr (.inr (.inr (.inr (.inr (.inl ⟨h, hi, ht⟩)))))))
  | abort h hi ht => exact .inr (.inr (.inr (.inr (.inr (.inr (.inr (.inr (.inl ⟨h, hi, ht⟩))))))))
  | stop h hi ht =>
    obtain ⟨a, ha⟩ := hi
    have hi : (∃ a, i = .stop a) ∨ ∃ a, i = .unknown 0x03#8 a :=
      ha.imp (fun ha => ⟨a, Option.some.inj ha⟩) fun ha => ⟨a, Option.some.inj ha⟩
    exact .inr (.inr (.inr (.inr (.inr (.inr (.inr (.inr (.inr ⟨h, hi, ht⟩))))))))

/-- Settles O48. -/
theorem playoutAndLinkLeaveTheSessions : Obligations.PlayoutAndLinkLeaveTheSessions := by
  unfold Obligations.PlayoutAndLinkLeaveTheSessions
  intro i s hpower hpower'
  obtain ⟨u, r, p, hmove, hexec, -⟩ := exec_reaches i s
  exact ⟨_, hexec, hmove.slots hpower hpower', hmove.params_mem hpower hpower'⟩

/-- Settles O49. -/
theorem generationAndCycleNumberMove : Obligations.GenerationAndCycleNumberMove := by
  unfold Obligations.GenerationAndCycleNumberMove
  intro i s hpower hpower'
  obtain ⟨u, r, p, hmove, hexec, -⟩ := exec_reaches i s
  exact ⟨_, hexec, hmove.numbers hpower hpower'⟩

end Sys2Proof.Proofs

/-! A step on a queue and on an empty one (R108, R113, R123, R124), and reset (R151). -/

namespace Sys2Proof.Machine

variable {s : State}

/-! ## One byte-time, case by case -/

theorem step_of_pending_nil (h : s.pending = []) : step s = .next (byteTime s) := by
  unfold step
  rw [h]

theorem byteTime_of_still (h : s.link.state.keyed = false) : byteTime s = s := by
  simp [byteTime, h]

theorem byteTime_of_keyed (h : s.link.state.keyed = true) : byteTime s = s.passByte.cycFalls :=
  if_pos h

theorem State.passByte_of_onAir {f : AirFrame} (hair : s.engine.onAir = some f) :
    s.passByte = { s with
      line := (s.encoder.current s.pool.mem f).toList, encoder := s.encoder.advance s.pool.mem f } := by
  unfold State.passByte
  rw [hair]

theorem State.passByte_of_waiting {w : Waiting} (hair : s.engine.onAir = none) (hw : s.encoder.waiting = some w) :
    s.passByte = s.finishLead w := by
  unfold State.passByte
  rw [hair, hw]

theorem State.passByte_of_nothing (hair : s.engine.onAir = none) (hw : s.encoder.waiting = none) :
    s.passByte = { s with line := s.txdByte.toList, encoder := { s.encoder with gap := s.encoder.gap - 1 } } := by
  unfold State.passByte
  rw [hair, hw]

/-- A choice or a cycle start is due, with no frame on air (R74, R113, R124). -/
theorem State.rowDue_iff (hair : s.engine.onAir = none) : s.rowDue = true ↔
    s.link.state = .running ∧ s.encoder.gap = 0 ∧ (s.engine.phase ≠ .between ∨
      s.link.stop = .none ∧ (s.link.firstPending = true ∨ s.link.pacing = .expired)) := by
  simp only [State.rowDue, State.choiceAllowed, State.cycleAllowed, State.cycleOpen, hair, Option.isNone_none, Bool.and_true,
    Bool.and_eq_true, Bool.or_eq_true, beq_iff_eq, bne_iff_ne]
  by_cases hphase : s.engine.phase = .between
  · simp only [hphase]
    tauto
  · simp only [hphase]
    tauto

/-- The byte on TXD of a keyed line with no frame on it (R113, R124). -/
theorem State.txdByte_of_nothing (hkeyed : s.link.state.keyed = true) (hair : s.engine.onAir = none) (hw : s.encoder.waiting = none) :
    s.txdByte = if s.rowDue then none else some fillByte := by
  unfold State.txdByte
  rw [if_pos hkeyed, hair, hw]

/-- The byte on TXD while a frame is on air (R125). -/
theorem State.txdByte_of_onAir {f : AirFrame} (hkeyed : s.link.state.keyed = true) (hair : s.engine.onAir = some f) :
    s.txdByte = s.encoder.current s.pool.mem f := by
  unfold State.txdByte
  rw [if_pos hkeyed, hair]

theorem State.txdByte_of_still (h : s.link.state.keyed = false) : s.txdByte = none := by
  simp [State.txdByte, h]

end Sys2Proof.Machine


namespace Sys2Proof.Proofs

open Sys2Proof.Machine

/-- Settles O1. -/
theorem stepTakesTheFrontOfTheQueue : Obligations.StepTakesTheFrontOfTheQueue := by
  unfold Obligations.StepTakesTheFrontOfTheQueue
  intro s c rest hpending
  unfold step
  rw [hpending]

/-- Settles O2: the case of `passByte` that each situation of the line meets. -/
theorem emptyQueueIsOneByteTime : Obligations.EmptyQueueIsOneByteTime := by
  unfold Obligations.EmptyQueueIsOneByteTime
  refine ⟨fun l => by cases l <;> simp [LinkState.keyed], fun s => ⟨rfl, rfl, State.txdByte_of_still, ?_⟩, ?_⟩
  · intro hkeyed hair hw
    rw [State.txdByte_of_nothing hkeyed hair hw]
    simp only [State.rowDue_iff hair]
    rfl
  · intro s hpending
    rw [step_of_pending_nil hpending]
    refine ⟨fun h => ?_, fun hkeyed hair hw => ?_, fun b c more f hkeyed hair hw => ?_, fun b f hkeyed hair hw => ?_,
      fun f hkeyed hair => ?_⟩
    · rw [byteTime_of_still h]
    · rw [byteTime_of_keyed hkeyed, State.passByte_of_nothing hair hw]
      rfl
    · rw [byteTime_of_keyed hkeyed, State.passByte_of_waiting hair hw]
      simp [State.finishLead, State.beginFrameAfter, State.cycFalls]
      rw [← hair]
    · rw [byteTime_of_keyed hkeyed, State.passByte_of_waiting hair hw]
      rfl
    · rw [byteTime_of_keyed hkeyed, State.passByte_of_onAir hair, State.txdByte_of_onAir hkeyed hair]
      unfold Encoder.current State.cycFalls
      split
      · rfl
      · rfl

end Sys2Proof.Proofs

namespace Sys2Proof.Machine

/-! ## Transactions: what every row of the port shows -/

theorem State.reachImmediate_port (s : State) : s.reachImmediate.port = s.port := by
  unfold State.reachImmediate
  repeat' split
  all_goals simp

theorem State.reachFrame_port (s : State) : s.reachFrame.port = s.port := by
  unfold State.reachFrame
  repeat' split
  all_goals simp

theorem State.reachCycle_port (s : State) : s.reachCycle.port = s.port := by
  unfold State.reachCycle
  split
  all_goals simp

/-- STOP acts on the link and the engine, never on the port (R114, R115). -/
theorem State.takeStop_port (s : State) (p : StopPoint) : (s.takeStop p).port = s.port := by
  unfold State.takeStop
  split
  case h_6 =>
    unfold State.stopRunning
    dsimp only
    repeat' split
    · rfl
    · rfl
    · exact State.reachImmediate_port _
    · exact State.reachFrame_port _
    · exact State.reachCycle_port _
  all_goals rfl

/-- What a transaction has shown the host stays: CSN and the bytes on MISO. -/
def KeepsShown (act : State → State) : Prop := ∀ u, (act u).port.csn = u.port.csn ∧ (act u).port.miso = u.port.miso

/-- The row is a transaction with `n` bytes after its code: always taken, or accepted or discarded by BUSY (R144, R147). -/
inductive Transaction (i : Instr) (n : Nat) : Prop
  | taken (act : State → State) (hact : KeepsShown act) (h : ∀ s, exec i s = .next (s.taken n act))
  | gated (act : State → State) (hact : KeepsShown act) (h : ∀ s, exec i s = .next (s.gated n act))

theorem transaction_of_accept {i : Instr} {args : List Byte} {c : Command} (h : ∀ s, exec i s = .next (s.accept args c)) :
    Transaction i args.length :=
  .gated (State.begin (.command c)) (fun _ => ⟨rfl, rfl⟩) h

theorem keepsShown_takeResult : KeepsShown State.takeResult := by
  intro u
  unfold State.takeResult
  repeat' split
  all_goals exact ⟨rfl, rfl⟩

theorem keepsShown_startGroup (group : Option Nat) : KeepsShown (State.startGroup group) := by
  intro u
  unfold State.startGroup
  repeat' split
  all_goals exact ⟨rfl, rfl⟩

theorem keepsShown_startClear : KeepsShown State.startClear := by
  intro u
  unfold State.startClear
  split
  all_goals exact ⟨rfl, rfl⟩

theorem transaction_status (args : List Byte) : Transaction (.status args) args.length :=
  .taken State.takeStatus (fun _ => ⟨rfl, rfl⟩) fun _ => rfl

theorem transaction_result (args : List Byte) : Transaction (.result args) args.length :=
  .taken State.takeResult keepsShown_takeResult fun _ => rfl

theorem transaction_stop (args : List Byte) : Transaction (.stop args) args.length := by
  cases args with
  | nil => exact .taken id (fun _ => ⟨rfl, rfl⟩) fun _ => rfl
  | cons p more =>
    exact .taken (State.takeStop (stopPointOf p)) (fun u => by rw [State.takeStop_port]; exact ⟨rfl, rfl⟩) fun _ => rfl

theorem transaction_retireGroup (args : List Byte) : Transaction (.retireGroup args) args.length :=
  .gated _ (keepsShown_startGroup _) fun _ => rfl

theorem transaction_clear (args : List Byte) : Transaction (.clear args) args.length :=
  .gated _ keepsShown_startClear fun _ => rfl

/-- The codes of the command table with their rows (R158). -/
def tableRows (args : List Byte) : List (Byte × Instr) :=
  [(0x01#8, .status args), (0x02#8, .result args), (0x03#8, .stop args), (0x10#8, .openSession args),
   (0x11#8, .write args), (0x12#8, .commit args), (0x13#8, .cancel args), (0x18#8, .retire args),
   (0x19#8, .retireGroup args), (0x20#8, .feed args), (0x28#8, .read args), (0x29#8, .query args),
   (0x2A#8, .notice args), (0x30#8, .start args), (0x31#8, .configure args), (0x3F#8, .clear args)]

theorem tableRows_codes (args : List Byte) : (tableRows args).map Prod.fst = commandCodes := rfl

/-- Byte 0 of a frame names its row, and UNKNOWN with a code of the command table is that command's row (R144, R158; log 18). -/
theorem exec_unknown_of_tableRow (args : List Byte) : ∀ p ∈ tableRows args,
    instrOfFrame (p.1 :: args) = p.2 ∧ commandCodes.contains p.1 = true ∧ ∀ s : State, exec (.unknown p.1 args) s = exec p.2 s := by
  intro p hp
  fin_cases hp
  all_goals exact ⟨rfl, rfl, fun _ => rfl⟩

/-- Every row of the command table is a transaction. -/
theorem transaction_tableRow (args : List Byte) : ∀ p ∈ tableRows args, Transaction p.2 args.length := by
  simp only [tableRows, List.forall_mem_cons]
  refine ⟨transaction_status args, transaction_result args, transaction_stop args, ?_, ?_, ?_, ?_, ?_, transaction_retireGroup args,
    ?_, ?_, ?_, ?_, ?_, ?_, transaction_clear args, fun _ h => absurd h List.not_mem_nil⟩
  all_goals exact transaction_of_accept fun _ => rfl

theorem Transaction.of_exec {i j : Instr} {n : Nat} (h : ∀ s, exec i s = exec j s) : Transaction j n → Transaction i n
  | .taken act hact hexec => .taken act hact fun s => (h s).trans (hexec s)
  | .gated act hact hexec => .gated act hact fun s => (h s).trans (hexec s)

/-- UNKNOWN is a transaction too, whatever its code (R149, log 18). -/
theorem transaction_unknown (code : Byte) (args : List Byte) : Transaction (.unknown code args) args.length := by
  by_cases hcode : commandCodes.contains code = true
  · have hmem : code ∈ (tableRows args).map Prod.fst := List.contains_iff_mem.mp (tableRows_codes args ▸ hcode)
    obtain ⟨p, hp, rfl⟩ := List.mem_map.mp hmem
    obtain ⟨-, -, hexec⟩ := exec_unknown_of_tableRow args p hp
    exact .of_exec hexec (transaction_tableRow args p hp)
  · exact transaction_of_accept fun s => execUnknown_outside s code args (Bool.eq_false_of_not_eq_true hcode)

theorem transaction_portRow (code : Byte) (args : List Byte) : ∀ row ∈ portRows code, Transaction (row args) args.length := by
  simp only [portRows, gatedRows, List.forall_mem_cons]
  refine ⟨transaction_status args, transaction_result args, transaction_stop args, transaction_unknown code args, ?_, ?_, ?_, ?_, ?_,
    transaction_retireGroup args, ?_, ?_, ?_, ?_, ?_, ?_, transaction_clear args, fun _ h => absurd h List.not_mem_nil⟩
  all_goals exact transaction_of_accept fun _ => rfl

/-- The rows that BUSY discards are gated (R147). -/
theorem gatedRow_gated {code : Byte} (hcode : commandCodes.contains code = false) (args : List Byte) : ∀ row ∈ gatedRows code,
    ∃ act, ∀ s, exec (row args) s = .next (s.gated args.length act) := by
  refine List.forall_mem_cons.mpr ⟨⟨_, fun s => execUnknown_outside s code args hcode⟩, fun row hrow => ?_⟩
  fin_cases hrow
  all_goals exact ⟨_, fun _ => rfl⟩

/-- Under reset the port ignores every transaction (R144, R151). -/
theorem Transaction.exec_in_reset {i : Instr} {n : Nat} {s : State} (h : Transaction i n) (hrstn : s.rstn = false) :
    exec i s = .next s := by
  cases h with
  | taken act _ hexec => simp [hexec, State.taken, hrstn]
  | gated act _ hexec => rw [hexec, State.gated_in_reset s n act hrstn]

/-- Every transaction ends with CSN high, and MISO has carried the status byte and the read-out buffer (R144, R145). -/
theorem Transaction.exec_shows {i : Instr} {n : Nat} {s : State} (h : Transaction i n) (hrstn : s.rstn = true) :
    ∃ t, exec i s = .next t ∧ t.port.csn = none ∧ t.port.miso = s.shiftOut n := by
  cases h with
  | taken act hact hexec =>
    refine ⟨_, hexec s, ?_⟩
    rw [State.taken, if_pos hrstn]
    exact hact _
  | gated act hact hexec =>
    refine ⟨_, hexec s, ?_⟩
    cases hbusy : s.busy with
    | true =>
      rw [State.gated_busy s n act hrstn hbusy]
      exact ⟨rfl, rfl⟩
    | false =>
      rw [State.gated_idle s n act hrstn hbusy]
      exact hact _

/-! ## Power-on values -/

theorem State.powerOn_pool (mem : Memory) (clr : Bool) (free : Nat) (q : List Instr) :
    (State.powerOn mem clr free q).pool = { free := List.range 2048, hold := none, mem := mem } := by
  simp [State.powerOn, Pool.rebuilt, Config.poolBlocks]

/-! ## Flag sets and the bytes that carry them -/

theorem Flags.isEmpty_iff (f : Flags) : f.isEmpty = true ↔ f = Flags.none := by
  cases f
  simp [Flags.isEmpty, Flags.none, and_assoc]

theorem Conditions.isEmpty_iff (c : Conditions) : c.isEmpty = true ↔ c = Conditions.none := by
  cases c
  simp [Conditions.isEmpty, Conditions.none, and_assoc]

/-- What asserts ATTN (R139). -/
theorem State.attn_iff (s : State) :
    s.attn = true ↔ (∃ e ∈ s.dir, e.flags ≠ Flags.none) ∨ s.notice.conds ≠ Conditions.none := by
  simp only [State.attn, Bool.or_eq_true, List.any_eq_true, Bool.not_eq_true', ← Bool.not_eq_true, Flags.isEmpty_iff,
    Conditions.isEmpty_iff, ne_eq]

/-- The port status byte, bit by bit (R145, R158). -/
theorem State.statusByte_bits (s : State) :
    s.statusByte.getLsbD 7 = s.busy ∧ s.statusByte.getLsbD 6 = s.port.result.isSome ∧ s.statusByte.getLsbD 5 = s.port.refused ∧
      s.statusByte.getLsbD 4 = s.attn ∧ s.statusByte.getLsbD 3 = s.engine.onAir.isSome ∧
      s.statusByte.extractLsb' 0 3 = s.link.state.code := by
  have hbits (i : Nat) : s.statusByte.getLsbD i = BitVec.getLsbD (w := 1 + 1 + 1 + 1 + 1 + 3)
      (BitVec.ofBool s.busy ++ BitVec.ofBool s.port.result.isSome ++ BitVec.ofBool s.port.refused ++ BitVec.ofBool s.attn ++
        BitVec.ofBool s.engine.onAir.isSome ++ s.link.state.code) i := rfl
  simp only [BitVec.getLsbD_append] at hbits
  refine ⟨(hbits 7).trans ?_, (hbits 6).trans ?_, (hbits 5).trans ?_, (hbits 4).trans ?_, (hbits 3).trans ?_, ?_⟩
  iterate 5 simp
  ext i hi
  rw [BitVec.getElem_extractLsb', hbits]
  simp [hi]

end Sys2Proof.Machine

namespace Sys2Proof.Proofs

open Sys2Proof.Machine

/-- Settles O4: the power-on values with RSTN low, and every row of the port a transaction. -/
theorem powerOnResetStillsTheDevice : Obligations.PowerOnResetStillsTheDevice := by
  unfold Obligations.PowerOnResetStillsTheDevice
  refine fun s => ⟨_, rfl, rfl, rfl, rfl, rfl, rfl, rfl, rfl, rfl, rfl, rfl, ?_, rfl, fun code args row hrow => ?_, fun edge => rfl⟩
  · simp [State.powerOn_pool]
  · exact (transaction_portRow code args row hrow).exec_in_reset rfl

/-- Settles O5. -/
theorem initialisationGivesThePowerOnValues : Obligations.InitialisationGivesThePowerOnValues := by
  unfold Obligations.InitialisationGivesThePowerOnValues
  refine ⟨fun s => ⟨_, rfl, rfl, rfl, State.powerOn_pool _ _ _ _, fun n => Slots.allFree_at n, rfl, rfl, rfl, rfl, rfl, rfl, rfl, rfl,
      rfl, rfl, rfl⟩,
    fun s hrstn htask => ?_, fun s hmem hclr hfree hpending => ?_⟩
  · simp [exec, execInitialisationEnd, hrstn, htask]
  · simp only [exec, execPowerOnInitialisation, hmem, hclr, hfree, hpending]
    rfl

/-- Settles O6. -/
theorem transactionsShowStatusThenReadOut : Obligations.TransactionsShowStatusThenReadOut := by
  unfold Obligations.TransactionsShowStatusThenReadOut
  refine ⟨fun s hrstn => ⟨fun hcsn => ?_, ?_⟩, fun s code args row hrow hrstn => ?_⟩
  · simp [exec, execEmptyTransaction, hrstn, State.sampledStatus, hcsn]
  · simp [exec, execEmptyTransaction, hrstn, State.endTransaction, State.shiftOut, State.sampledStatus]
  · obtain ⟨t, hexec, hcsn, hmiso⟩ := (transaction_portRow code args row hrow).exec_shows hrstn
    refine ⟨t, hexec, hcsn, ?_, ?_, fun i hi => ?_⟩
    · simp [hmiso, State.shiftOut]
    · rw [hmiso]
      rfl
    · simp [hmiso, State.shiftOut, hi]

/-- Settles O7. -/
theorem portStatusByteLayout : Obligations.PortStatusByteLayout := by
  unfold Obligations.PortStatusByteLayout
  intro s
  obtain ⟨hbusy, hresult, hrefused, hattn, hair, hstate⟩ := s.statusByte_bits
  refine ⟨hbusy, hresult, hrefused, ?_, hattn.symm, hair, ?_⟩
  · rw [hattn, State.attn_iff]
  · rw [hstate]
    cases s.link.state <;> rfl

/-- Settles O8. -/
theorem busyPortDiscards : Obligations.BusyPortDiscards := by
  unfold Obligations.BusyPortDiscards
  intro s code args hcode row hrow hrstn hbusy
  obtain ⟨act, hexec⟩ := gatedRow_gated hcode args row hrow
  rw [hexec, State.gated_busy s _ act hrstn hbusy]
  rfl

end Sys2Proof.Proofs

/-! STATUS (R138, R152), the frames of the command table with too few bytes (R149, R158), and the promises of the reset state. -/

namespace Sys2Proof.Machine

/-! ## Two-byte fields and sets of bits -/

/-- A count's two bytes, high byte first (R128, R144). -/
theorem countBytes_eq (n : Nat) : countBytes n = [BitVec.ofNat 8 (n / 256), BitVec.ofNat 8 n] := by
  have hhigh : hiByte (BitVec.ofNat 16 n) = BitVec.ofNat 8 (n / 256) := by
    refine BitVec.eq_of_toNat_eq ?_
    simp only [hiByte, BitVec.extractLsb'_toNat, BitVec.toNat_ofNat, Nat.shiftRight_eq_div_pow]
    omega
  have hlow : loByte (BitVec.ofNat 16 n) = BitVec.ofNat 8 n := by
    refine BitVec.eq_of_toNat_eq ?_
    simp only [loByte, BitVec.extractLsb'_toNat, BitVec.toNat_ofNat, Nat.shiftRight_eq_div_pow]
    omega
  rw [countBytes, bytes16, hhigh, hlow]

/-- The open slot set as a byte, bit by bit (R152). -/
theorem State.openSlots_getLsbD (s : State) :
    (∀ n : SlotNo, s.openSlots.getLsbD n.val = (s.slots.at n).isSome) ∧ ∀ i, 4 ≤ i → s.openSlots.getLsbD i = false := by
  have hbits (i : Nat) : s.openSlots.getLsbD i = BitVec.getLsbD (w := 4 + 1 + 1 + 1 + 1)
      (0#4 ++ BitVec.ofBool s.slots[3].isSome ++ BitVec.ofBool s.slots[2].isSome ++ BitVec.ofBool s.slots[1].isSome ++
        BitVec.ofBool s.slots[0].isSome) i := rfl
  simp only [BitVec.getLsbD_append] at hbits
  refine ⟨fun n => (hbits n.val).trans ?_, fun i hi => (hbits i).trans ?_⟩
  · fin_cases n
    all_goals
      simp
      rfl
  · rw [if_neg (by omega), if_neg (by omega), if_neg (by omega), if_neg (by omega), BitVec.getLsbD_zero]

/-- The device conditions as a byte, bit by bit (R158). -/
theorem Conditions.byte_getLsbD (c : Conditions) :
    c.byte.getLsbD 0 = c.linkFault ∧ c.byte.getLsbD 1 = c.haltReached ∧ c.byte.getLsbD 2 = c.dormantEntered ∧
      c.byte.getLsbD 3 = c.cycleStart ∧ ∀ i, 4 ≤ i → c.byte.getLsbD i = false := by
  have hbits (i : Nat) : c.byte.getLsbD i = BitVec.getLsbD (w := 4 + 1 + 1 + 1 + 1)
      (0#4 ++ BitVec.ofBool c.cycleStart ++ BitVec.ofBool c.dormantEntered ++ BitVec.ofBool c.haltReached ++
        BitVec.ofBool c.linkFault) i := rfl
  simp only [BitVec.getLsbD_append] at hbits
  refine ⟨(hbits 0).trans ?_, (hbits 1).trans ?_, (hbits 2).trans ?_, (hbits 3).trans ?_, fun i hi => (hbits i).trans ?_⟩
  iterate 4 simp
  rw [if_neg (by omega), if_neg (by omega), if_neg (by omega), if_neg (by omega), BitVec.getLsbD_zero]

theorem Entry.isLive_iff (e : Entry) : e.isLive = true ↔ ∃ v, e.body = .live v := by
  unfold Entry.isLive
  cases e.body <;> simp

/-- STATUS answers its 17 bytes and empties the device conditions (R138, R152). -/
theorem exec_status {s : State} (hrstn : s.rstn = true) (args : List Byte) :
    exec (.status args) s = .next { s with
      port := { s.transacted args.length with readOut := s.statusResponse }
      notice := { s.notice with conds := Conditions.none } } := by
  simp only [exec, execStatus, State.taken, if_pos hrstn]
  rfl

theorem State.liveCount_eq (s : State) : s.liveCount = (s.dir.filter (fun e => e.isLive)).length :=
  List.countP_eq_length_filter

/-! ## Acceptance from a parsed frame (R144, R149) -/

theorem accepted_of_parse {row : List Byte → Instr} {parse : List Byte → Command} {args : List Byte} {c : Command} {n : Nat}
    (hrow : ∀ args s, exec (row args) s = .next (s.accept args (parse args))) (hparse : parse args = c) (hn : args.length = n) :
    Accepted (row args) n (.command c) := by
  subst hn hparse
  exact accepted_of_exec_accept (hrow args)

section ShortFrames

variable {args : List Byte}

theorem parseOpen_short (h : args.length < 6) : parseOpen args = .short := by
  unfold parseOpen
  split
  · simp only [List.length_cons] at h
    omega
  · rfl

theorem parseWrite_short_args (h : args.length < 4) : parseWrite args = .short := by
  unfold parseWrite
  split
  · simp only [List.length_cons] at h
    omega
  · rfl

theorem parseCommit_short (h : args.length < 2) : parseCommit args = .short := by
  unfold parseCommit
  split
  · simp only [List.length_cons] at h
    omega
  · rfl

theorem parseCancel_short (h : args.length < 1) : parseCancel args = .short := by
  unfold parseCancel
  split
  · simp at h
  · rfl

theorem parseRetire_short (h : args.length < 2) : parseRetire args = .short := by
  unfold parseRetire
  split
  · simp only [List.length_cons] at h
    omega
  · rfl

theorem parseFeed_short_args (h : args.length < 5) : parseFeed args = .short := by
  unfold parseFeed
  split
  · simp only [List.length_cons] at h
    omega
  · rfl

theorem parseRead_short (h : args.length < 5) : parseRead args = .short := by
  unfold parseRead
  split
  · simp only [List.length_cons] at h
    omega
  · rfl

theorem parseQuery_short (h : args.length < 2) : parseQuery args = .short := by
  unfold parseQuery
  split
  · simp only [List.length_cons] at h
    omega
  · rfl

theorem parseConfigure_short (h : args.length < 3) : parseConfigure args = .short := by
  unfold parseConfigure
  split
  · simp only [List.length_cons] at h
    omega
  · rfl

end ShortFrames

/-- An accepted RETIRE GROUP, as its group makes it act (R58). -/
theorem exec_retireGroup_ready {s : State} (h : s.Ready) (args : List Byte) :
    exec (.retireGroup args) s =
      .next ({ s with port := { s.transacted args.length with refused := false } }.startGroup (parseGroup args)) := by
  obtain ⟨hrstn, hidle⟩ := h
  simp only [exec, execRetireGroup]
  rw [State.gated_idle s _ _ hrstn hidle]
  rfl

end Sys2Proof.Machine

namespace Sys2Proof.Proofs

open Sys2Proof.Machine

/-- Settles O10. -/
theorem statusReportsAndEmptiesTheConditions : Obligations.StatusReportsAndEmptiesTheConditions := by
  unfold Obligations.StatusReportsAndEmptiesTheConditions
  intro s args hrstn
  obtain ⟨hslots, hslots'⟩ := s.openSlots_getLsbD
  obtain ⟨hfault, hhalt, hdormant, hcycle, hrest⟩ := s.notice.conds.byte_getLsbD
  refine ⟨s.openSlots, s.notice.conds.byte, ?_, hslots, hslots', hfault, hhalt, hdormant, hcycle, hrest, by decide, by decide,
    by decide, Entry.isLive_iff, fun w => rfl, countBytes_eq⟩
  rw [exec_status hrstn, State.statusResponse, State.liveCount_eq]

/-- Settles O60: with no entry, no session and no frame every block is in the free list, and each promise has nothing to look at. -/
theorem resetKeepsEveryPromise : Obligations.ResetKeepsEveryPromise := by
  unfold Obligations.ResetKeepsEveryPromise
  have hslots (n : SlotNo) : State.reset.slots.at n = none := Slots.allFree_at n
  refine ⟨⟨.nil, Nat.zero_le _, nofun⟩, ?_, fun n x hx => absurd ((hslots n).symm.trans hx) nofun,
    ⟨fun n x hx => absurd ((hslots n).symm.trans hx) nofun, fun e he => ?_⟩, by decide, fun e he => ?_,
    ⟨fun c hc => ?_, fun _ f hf => ?_⟩,
    State.powerOn_linkOk _ _ _ _, nofun, .of_quiet rfl rfl, ⟨nofun, nofun, fun _ => rfl, .nil, nofun⟩, ⟨nofun, nofun⟩, .nil, nofun⟩
  · rw [State.blocksOk, State.allBlocks, State.reset, State.powerOn_pool]
    simp [State.powerOn, slotBlocks, slotNumbers, Config.poolBlocks]
  · exact absurd he List.not_mem_nil
  · exact absurd he List.not_mem_nil
  · simp [State.reset, State.powerOn_pool] at hc
  · simp [State.reset, State.powerOn, Engine.powerOn] at hf

/-- Settles O11: the parser of each row on a short frame. -/
theorem shortAndUnknownFrames : Obligations.ShortAndUnknownFrames := by
  unfold Obligations.ShortAndUnknownFrames
  refine ⟨exec_unknown_of_tableRow, fun code args hcode => instrOfFrame_outside code args hcode, rfl,
    fun code args hcode => accepted_of_exec_accept fun s => execUnknown_outside s code args hcode,
    fun args h => accepted_of_parse (row := .openSession) (fun _ _ => rfl) (parseOpen_short h) rfl,
    fun args h => accepted_of_parse (row := .write) (fun _ _ => rfl) (parseWrite_short_args h) rfl,
    fun n f1 f0 c data h => ?_,
    fun args h => accepted_of_parse (row := .commit) (fun _ _ => rfl) (parseCommit_short h) rfl,
    fun args h => accepted_of_parse (row := .cancel) (fun _ _ => rfl) (parseCancel_short h) rfl,
    fun args h => accepted_of_parse (row := .retire) (fun _ _ => rfl) (parseRetire_short h) rfl,
    fun args h => ?_,
    fun args h => accepted_of_parse (row := .feed) (fun _ _ => rfl) (parseFeed_short_args h) rfl,
    fun k1 k0 f1 f0 c data h => ?_,
    fun args h => accepted_of_parse (row := .read) (fun _ _ => rfl) (parseRead_short h) rfl,
    fun args h => accepted_of_parse (row := .query) (fun _ _ => rfl) (parseQuery_short h) rfl,
    fun args h => accepted_of_parse (row := .configure) (fun _ _ => rfl) (parseConfigure_short h) rfl,
    fun v => ⟨fun hv => hv.answers_of_refused rfl, fun hv => hv.answers_of_refused rfl⟩⟩
  · exact accepted_of_parse (row := .write) (fun _ _ => rfl) (parseWrite_short h) (by simp only [List.length_cons]; omega)
  · intro s hs
    obtain rfl : args = [] := List.length_eq_zero_iff.mp (by omega)
    rw [exec_retireGroup_ready hs]
    rfl
  · exact accepted_of_parse (row := .feed) (fun _ _ => rfl) (parseFeed_short h) (by simp only [List.length_cons]; omega)

end Sys2Proof.Proofs

/-! OPEN: its checks in their order, and what it does when it passes them (R11, R12, R22, R34 to R38). -/

namespace Sys2Proof.Machine

/-- COMMAND_COMPLETION leaves what the command's act made, its result in the slot (R147). -/
theorem State.Runs.exec_completion {v u : State} {c : Command} {r : Result} (h : v.Runs c) (hrun : runCommand c v = (u, r)) :
    exec .commandCompletion v = .next (u.finish r) := by
  rw [exec_commandCompletion_of_runs h, State.completeCommand, hrun]

/-! ## OPEN's checks (R34 to R37) -/

theorem Entry.isSpent_iff (e : Entry) : e.isSpent = true ↔ ∃ l, e.body = .spent l := by
  unfold Entry.isSpent
  cases e.body <;> simp

theorem Slots.lowestFree_isNone (x : Slots) : x.lowestFree.isNone = true ↔ ∀ n, x.at n ≠ none := by
  have hmem (n : SlotNo) : n ∈ slotNumbers := by fin_cases n <;> decide
  rw [Slots.lowestFree, Option.isNone_iff_eq_none, List.find?_eq_none]
  simp only [Option.isNone_iff_eq_none]
  exact ⟨fun h n => h n (hmem n), fun h n _ => h n⟩

/-- The slot an OPEN takes (R38). -/
theorem Slots.lowestFree_eq_some {x : Slots} {n : SlotNo} (hn : x.at n = none) (hlow : ∀ m, m < n → x.at m ≠ none) :
    x.lowestFree = some n := by
  have hbelow : ∀ n m : SlotNo, m ∈ slotNumbers.take n.val → m < n := by decide
  have hsplit : ∀ n : SlotNo, slotNumbers = slotNumbers.take n.val ++ n :: slotNumbers.drop (n.val + 1) := by decide
  refine List.find?_eq_some_iff_append.mpr ⟨by simp [hn], _, _, hsplit n, fun m hm => ?_⟩
  simpa [Option.isSome_iff_ne_none] using hlow m (hbelow n m hm)

theorem blocksTaken_eq (kind : Kind) (length : Nat) :
    blocksTaken kind length = (if kind = .feed then 2 else 1) * ((length + 31) / 32) := by
  cases kind
  · exact (Nat.one_mul _).symm
  · rfl

/-- OPEN's eight checks, one after the other: the first that fails gives the code (R34 to R37). -/
theorem openRefusal_eq (s : State) (key : Key) (kind : Kind) (cls length : Nat) :
    (openArgsRefusal key kind cls length).or (openStateRefusal key kind length s) =
      if key = 0x0000#16 ∨ key = 0xFFFF#16 then some ResultCode.badKey
      else if 1024 < length ∨ (kind = .feed ∧ length = 0) then some .badLength
      else if 3 < cls then some .badClass
      else if s.slots.holds key = true then some .keyOpen
      else if (s.dir.entryOf key).any Entry.isSpent = true then some .keySpent
      else if ∀ n, s.slots.at n ≠ none then some .noSlot
      else if s.dir.entryOf key = none ∧ 256 ≤ s.dir.length then some .tableFull
      else if s.pool.free.length < (if kind = .feed then 2 else 1) * ((length + 31) / 32) then some .noSpace
      else none := by
  unfold openArgsRefusal openStateRefusal
  simp only [← blocksTaken_eq, ← s.slots.lowestFree_isNone, badKey_iff, Bool.or_eq_true, Bool.and_eq_true, decide_eq_true_eq, beq_iff_eq]
  by_cases hkey : key = 0x0000#16 ∨ key = 0xFFFF#16
  · simp only [if_pos hkey, Option.some_or]
  by_cases hlength : 1024 < length ∨ (kind = .feed ∧ length = 0)
  · simp only [if_neg hkey, if_pos hlength, Option.some_or]
  by_cases hcls : 3 < cls
  · simp only [if_neg hkey, if_neg hlength, if_pos hcls, Option.some_or]
  simp only [if_neg hkey, if_neg hlength, if_neg hcls, Option.none_or]
  cases he : s.dir.entryOf key with
  | none => simp [Config.directoryRoom]
  | some e => cases hbody : e.body <;> simp [Entry.isSpent, hbody]

theorem runOpen_refused {s : State} {key : Key} {kind : Kind} {cls length : Nat} {code : ResultCode}
    (h : (openArgsRefusal key kind cls length).or (openStateRefusal key kind length s) = some code) :
    runOpen key kind cls length s = (s, Result.refuse code) := by
  unfold runOpen
  cases hargs : openArgsRefusal key kind cls length with
  | some c =>
    rw [hargs, Option.some_or] at h
    rw [Option.some.inj h]
  | none =>
    rw [hargs, Option.none_or] at h
    simp only [h]

/-- An OPEN that passes every check takes the lowest FREE slot (R38). -/
theorem runOpen_passed {s : State} {key : Key} {kind : Kind} {cls length : Nat} {n : SlotNo}
    (h : (openArgsRefusal key kind cls length).or (openStateRefusal key kind length s) = none) (hn : s.slots.lowestFree = some n) :
    runOpen key kind cls length s = (s.openSlot key kind cls length n, Result.ok [byteOf n.val]) := by
  obtain ⟨hargs, hstate⟩ := Option.or_eq_none_iff.mp h
  simp only [runOpen, hargs, hstate, hn]

/-! ## The directory after an OPEN (R11, R12) -/

theorem Directory.opened_new {d : Directory} {key : Key} (n : SlotNo) (h : d.entryOf key = none) :
    (d.opened key n).entryOf key = some (stagedEntry key n) ∧ (d.opened key n).length = d.length + 1 := by
  have hopened : d.opened key n = d.insert (stagedEntry key n) := by simp only [Directory.opened, h]
  rw [hopened]
  exact ⟨d.entryOf_insert_same (stagedEntry key n), Directory.insert_length h⟩

theorem Directory.opened_known {d : Directory} {key : Key} {e : Entry} (n : SlotNo) (h : d.entryOf key = some e) :
    (d.opened key n).entryOf key = some (e.withSlot (some n)) ∧ (d.opened key n).map Entry.key = d.map Entry.key := by
  have hopened : d.opened key n = d.update key (Entry.withSlot (some n)) := by simp only [Directory.opened, h]
  rw [hopened, Directory.entryOf_update_same _ _ _ (Entry.withSlot_key _), h]
  exact ⟨rfl, d.update_keys key (Entry.withSlot_key _)⟩

theorem Directory.opened_other (d : Directory) {key k : Key} (n : SlotNo) (hk : k ≠ key) :
    (d.opened key n).entryOf k = d.entryOf k := by
  unfold Directory.opened
  split
  · exact d.entryOf_update_other _ (Entry.withSlot_key _) hk
  · exact d.entryOf_insert_other _ hk

end Sys2Proof.Machine

namespace Sys2Proof.Proofs

open Sys2Proof.Machine

/-- Settles O13. -/
theorem openChecksInOrder : Obligations.OpenChecksInOrder := by
  unfold Obligations.OpenChecksInOrder
  intro v key kind cls length code hruns hcode
  exact hruns.answers_of_refused (runOpen_refused ((openRefusal_eq v key kind cls length).trans hcode))

/-- Settles O12. -/
theorem openTakesTheLowestFreeSlot : Obligations.OpenTakesTheLowestFreeSlot := by
  unfold Obligations.OpenTakesTheLowestFreeSlot
  refine ⟨Slots.holds_iff, Entry.isSpent_iff, fun k1 k0 o c l1 l0 more => ?_, ?_⟩
  · refine accepted_of_parse (row := .openSession) (parse := parseOpen) (fun _ _ => rfl) ?_ (by simp only [List.length_cons]; omega)
    rw [← word16_toNat]
    rfl
  · intro v key kind cls length n b taken hruns hzero hones hlength hfeed hcls hholds hspent hfree hlow hroom hspace
    have htaken : blocksTaken kind length = taken := by cases kind <;> rfl
    have hfits : ¬(1024 < length ∨ kind = .feed ∧ length = 0) := by
      rintro (hlong | ⟨hkind, hempty⟩)
      · omega
      · exact absurd (hfeed hkind) (by omega)
    have hpassed : (openArgsRefusal key kind cls length).or (openStateRefusal key kind length v) = none := by
      rw [openRefusal_eq, ← blocksTaken_eq, if_neg (not_or.mpr ⟨hzero, hones⟩), if_neg hfits, if_neg (by omega),
        if_neg (by simp [hholds]), if_neg (by simp [hspent]), if_neg fun h => h n hfree, if_neg, if_neg (by rw [htaken]; exact Nat.not_lt.mpr hspace)]
      rintro ⟨hnone, hfull⟩
      have := hroom hnone
      omega
    have hrun := runOpen_passed hpassed (Slots.lowestFree_eq_some hfree hlow)
    refine ⟨v.dir.opened key n, (hruns.exec_completion hrun).trans ?_, fun hnone => Directory.opened_new n hnone,
      fun e w he hbody => ?_, fun e l r o he hbody => ?_, fun k hk => v.dir.opened_other n hk⟩
    · rw [State.openSlot, htaken]
      cases kind <;> rfl
    · have hknown := Directory.opened_known n he
      rwa [Entry.withSlot, hbody] at hknown
    · have hknown := Directory.opened_known n he
      rwa [Entry.withSlot, hbody] at hknown

end Sys2Proof.Proofs

/-! WRITE, COMMIT and CANCEL that pass their checks (R13, R14, R21, R24 to R28, R41 to R50), and where an entry's chains go. -/

namespace Sys2Proof.Machine

/-! ## Bytes placed into a chain (R21, R41, R97) -/

/-- Where payload byte `i` of a chain lies (R21). -/
theorem chainAddr_eq_some {chain : Chain} {i a : Nat} :
    chainAddr chain i = some a ↔ ∃ b, chain[i / 32]? = some b ∧ a = 32 * b + i % 32 := by
  simp only [chainAddr, Config.blockBytes, Option.map_eq_some_iff, Nat.mul_comm 32]
  exact exists_congr fun b => and_congr_right fun _ => eq_comm

/-- The pool's bytes outside the piece read as before, those of the piece as it gives them (R21). -/
theorem read_writePayload (m : Memory) (chain : Chain) (offset : Nat) (data : List Byte) :
    (∀ a, (∀ j b, j < data.length → chain[(offset + j) / 32]? = some b → a ≠ 32 * b + (offset + j) % 32) →
      (writePayload m chain offset data).read a = m.read a) ∧
    (m.wf → chain.Nodup → ∀ j y b, data[j]? = some y → chain[(offset + j) / 32]? = some b →
      (writePayload m chain offset data).read (32 * b + (offset + j) % 32) = y) := by
  refine ⟨fun a ha => ?_, fun hm hchain j y b hy hb => ?_⟩
  · refine read_writePayload_outside chain a data m offset ?_
    rintro ⟨j, hj, haddr⟩
    obtain ⟨b, hb, rfl⟩ := chainAddr_eq_some.mp haddr
    exact ha j b hj hb rfl
  · obtain ⟨hj, rfl⟩ := List.getElem?_eq_some_iff.mp hy
    exact payloadByte_writePayload chain hchain data m offset j _ hm hj (chainAddr_eq_some.mpr ⟨b, hb, rfl⟩)

/-! ## WRITE (R41) -/

/-- Bytes beyond a WRITE's count are ignored (R144, R149). -/
theorem parseWrite_full (n f1 f0 : Byte) {c : Byte} {data : List Byte} (more : List Byte) (hdata : data.length = c.toNat) :
    parseWrite (n :: f1 :: f0 :: c :: (data ++ more)) = .write n.toNat (f1.toNat * 256 + f0.toNat) data := by
  have henough : ¬(data ++ more).length < c.toNat := by
    rw [List.length_append]
    omega
  rw [parseWrite, if_neg henough, word16_toNat, ← hdata, List.take_left']
  rfl

theorem runWrite_passed {s : State} {n : SlotNo} {offset : Nat} {data : List Byte} {x : Session} (hpos : 1 ≤ data.length)
    (hmax : data.length ≤ 64) (hn : s.slots.at n = some x) (hoffset : offset = x.fill) (hfits : offset + data.length ≤ x.length) :
    runWrite n.val offset data s = ({ s with
      slots := s.slots.put n (some (x.written (offset + data.length)))
      pool := { s.pool with mem := writePayload s.pool.mem x.staging offset data } },
      Result.ok (countBytes (offset + data.length) ++ [if offset + data.length = x.length then 2#8 else 1#8])) := by
  have hroom : ¬offset + data.length > x.length := by omega
  simp only [runWrite, slotNoOf_val, if_neg (length_in_range hpos hmax), hn, if_neg (not_not_intro hoffset), if_neg hroom]
  simp [slotStateByte, Session.full, Session.written]

/-! ## COMMIT (R13, R43 to R49) -/

/-- KEYING and what its expiry at the same instant makes of it (R109, R110, R120). -/
theorem State.enterKeying_eq (s : State) :
    s.enterKeying = { s with encoder := Encoder.idle, link := s.link.keyed s.params } := by
  unfold State.enterKeying Link.keyed
  by_cases hdelay : s.params.keyUpDelay = 0
  · have hpoint (u : State) : u.expiryPoint 0 = .boundary := by simp [State.expiryPoint]
    simp only [if_pos hdelay, if_neg (not_not_intro hdelay), State.expireKeyUp, hpoint]
    split
    · rfl
    · rfl
  · simp only [if_neg hdelay, if_pos hdelay]

theorem State.wake_eq (s : State) : s.wake = { s with
    encoder := if s.link.state = .dormant then Encoder.idle else s.encoder
    link := if s.link.state = .dormant then s.link.keyed s.params else s.link } := by
  unfold State.wake
  split
  · exact s.enterKeying_eq
  · rfl

theorem Flags.supersede_eq (f : Flags) (c : Option Confirm) : f.supersede c = { f with superseded := f.superseded || c.isSome } := by
  unfold Flags.supersede
  cases c <;> simp

/-- The flags a COMMIT leaves (R13). -/
theorem Flags.committed_eq (f : Flags) (pending : Option Confirm) (x : Session) :
    f.committed pending x.kind =
      { f with superseded := f.superseded || pending.isSome, feedDue := f.feedDue && x.spare.isSome } := by
  unfold Flags.committed Session.kind
  cases x.spare <;> simp [Flags.supersede_eq, Flags.clearFeedDue]

theorem Directory.entryOf_commit {d : Directory} {x : Session} {e : Entry} (he : d.entryOf x.key = some e) (confirm : Bool) :
    (d.update x.key (Entry.commit x confirm)).entryOf x.key = some (e.commit x confirm) := by
  rw [Directory.entryOf_update_same _ _ _ (Entry.commit_key x confirm), he]
  rfl

/-! ## The chains of an entry (R24 to R28) -/

/-- Elsewhere than in the Record frame on air the front chain goes to the free list's tail, then the back chain (R24, R26, R27). -/
theorem Pool.displace_eq (p : Pool) (onAir : Option AirFrame) (key : Key) (v : Live) :
    p.displace onAir key v = (p.displaceFront onAir key v.front).release ((v.feed.map Feed.back).getD []) := by
  unfold Pool.displace
  cases v.feed
  · exact congrArg (fun free => { p.displaceFront onAir key v.front with free := free }) (List.append_nil _).symm
  · rfl

theorem Pool.displaceFront_used {p : Pool} {onAir : Option AirFrame} {key : Key} {front : Chain}
    (huses : frameUses onAir key front = true) (hhold : p.hold = none) :
    p.displaceFront onAir key front = { p with hold := some front } := by
  simp [Pool.displaceFront, huses, hhold]

theorem Pool.displaceFront_unused {p : Pool} {onAir : Option AirFrame} {key : Key} {front : Chain}
    (huses : ¬frameUses onAir key front = true) : p.displaceFront onAir key front = p.release front := by
  simp [Pool.displaceFront, huses]

/-! ## CANCEL (R14, R25, R50) -/

theorem Entry.isStaged_iff (e : Entry) : e.isStaged = true ↔ ∃ n, e.body = .staged n := by
  unfold Entry.isStaged
  cases e.body <;> simp

theorem runCancel_badSlot {slot : Nat} (s : State) (h : 3 < slot) : runCancel slot s = (s, Result.refuse .badSlot) := by
  simp [runCancel, slotNoOf_of_three_lt h]

theorem runCancel_free {s : State} {n : SlotNo} (hn : s.slots.at n = none) : runCancel n.val s = (s, Result.refuse .state) := by
  simp only [runCancel, slotNoOf_val, hn]

theorem runCancel_session {s : State} {n : SlotNo} {x : Session} {e : Entry} (hn : s.slots.at n = some x)
    (he : s.dir.entryOf x.key = some e) :
    runCancel n.val s = ({ s with
      slots := s.slots.put n none, pool := s.pool.release x.chains, dir := s.dir.cancelled x.key },
      Result.ok (bytes16 x.key ++ [yesNo e.isStaged])) := by
  simp only [runCancel, slotNoOf_val, hn, he, Option.any_some]

theorem Directory.cancelled_staged {d : Directory} {key : Key} {e : Entry} (he : d.entryOf key = some e) (h : e.isStaged = true) :
    d.cancelled key = d.remove key := by
  simp only [Directory.cancelled, he, if_pos h]

theorem Directory.cancelled_kept {d : Directory} {key : Key} {e : Entry} (he : d.entryOf key = some e) (h : ¬e.isStaged = true) :
    d.cancelled key = d.update key (Entry.withSlot none) ∧ (d.cancelled key).entryOf key = some (e.withSlot none) := by
  have hkept : d.cancelled key = d.update key (Entry.withSlot none) := by simp only [Directory.cancelled, he, if_neg h]
  rw [hkept, Directory.entryOf_update_same _ _ _ (Entry.withSlot_key _), he]
  exact ⟨rfl, rfl⟩

theorem Directory.cancelled_other (d : Directory) {key k : Key} (hk : k ≠ key) : (d.cancelled key).entryOf k = d.entryOf k := by
  unfold Directory.cancelled
  split
  · split
    · exact d.entryOf_remove_other hk
    · exact d.entryOf_update_other _ (Entry.withSlot_key _) hk
  · rfl

end Sys2Proof.Machine

namespace Sys2Proof.Proofs

open Sys2Proof.Machine

/-- Settles O14. -/
theorem writePlacesItsBytes : Obligations.WritePlacesItsBytes := by
  unfold Obligations.WritePlacesItsBytes
  refine ⟨fun n f1 f0 c data more hdata => ?_, fun v n offset data x hruns hpos hmax hn hoffset hfits => ?_⟩
  · refine accepted_of_parse (row := .write) (parse := parseWrite) (fun _ _ => rfl) (parseWrite_full n f1 f0 more hdata) ?_
    simp only [List.length_cons, List.length_append]
    omega
  · obtain ⟨houtside, hinside⟩ := read_writePayload v.pool.mem x.staging offset data
    exact ⟨_, hruns.exec_completion (runWrite_passed hpos hmax hn hoffset hfits), houtside, hinside⟩

/-- Settles O16. -/
theorem commitInstallsTheVersion : Obligations.CommitInstallsTheVersion := by
  unfold Obligations.CommitInstallsTheVersion
  refine ⟨fun b => by cases b <;> rfl, fun n o more => ?_, fun v n confirm x e hruns hn hfill he => ?_⟩
  · exact accepted_of_parse (row := .commit) (parse := parseCommit) (fun _ _ => rfl) rfl (by simp only [List.length_cons]; omega)
  · refine ⟨v.dir.update x.key (Entry.commit x confirm), ?_, ?_, v.dir.update_keys x.key (Entry.commit_key x confirm),
      fun k hk => v.dir.entryOf_update_other _ (Entry.commit_key x confirm) hk⟩
    · rw [hruns.exec_completion (runCommit_full hn hfill he), State.wake_eq]
      rfl
    · rw [Directory.entryOf_commit he, Entry.commit, Flags.committed_eq]
      rfl

/-- Settles O18. -/
theorem commitAndRetireMoveTheChains : Obligations.CommitAndRetireMoveTheChains := by
  unfold Obligations.CommitAndRetireMoveTheChains
  intro p onAir key b
  refine ⟨fun hbody => ?_, ?_⟩
  · cases b with
    | live v => exact absurd rfl (hbody v)
    | _ => rfl
  · rintro v rfl
    have hback : (v.feed.map Feed.back).getD [] = match v.feed with | some f => f.back | none => [] := by cases v.feed <;> rfl
    refine ⟨rfl, ?_⟩
    rw [Pool.displace_eq, hback]
    refine ⟨fun f hair hkey hchain hfront hhold => ?_, fun hnot => ?_⟩
    · rw [Pool.displaceFront_used ((frameUses_iff _ _ _).mpr ⟨f, hair, hkey, hchain, hfront⟩) hhold]
      rfl
    · rw [Pool.displaceFront_unused]
      · rfl
      · intro huses
        obtain ⟨f, hair, hkey, hchain, hfront⟩ := (frameUses_iff _ _ _).mp huses
        exact hfront (hnot f hair hkey hchain)

/-- Settles O20. -/
theorem cancelEndsTheSession : Obligations.CancelEndsTheSession := by
  unfold Obligations.CancelEndsTheSession
  refine ⟨Entry.isStaged_iff, fun n more => ?_, fun v slot hruns => ⟨fun hslot => ?_, ?_⟩⟩
  · exact accepted_of_parse (row := .cancel) (parse := parseCancel) (fun _ _ => rfl) rfl (by simp only [List.length_cons]; omega)
  · exact hruns.answers_of_refused (runCancel_badSlot v hslot)
  · rintro n rfl
    refine ⟨fun hn => hruns.answers_of_refused (runCancel_free hn), fun x e hn he => ?_⟩
    refine ⟨v.dir.cancelled x.key, ?_, fun hstaged => ?_, fun w hbody => ?_, fun l r o hbody => ?_,
      fun k hk => v.dir.cancelled_other hk⟩
    · rw [hruns.exec_completion (runCancel_session hn he), List.append_assoc]
      rfl
    · rw [Directory.cancelled_staged he hstaged, Directory.entryOf_remove_same]
    · obtain ⟨-, hkept⟩ := Directory.cancelled_kept he (by simp [Entry.isStaged, hbody])
      rwa [Entry.withSlot, hbody] at hkept
    · obtain ⟨-, hkept⟩ := Directory.cancelled_kept he (by simp [Entry.isStaged, hbody])
      rwa [Entry.withSlot, hbody] at hkept

end Sys2Proof.Proofs

/-! RETIRE, RETIRE GROUP and FEED that pass their checks (R15, R27, R55 to R59, R97, R98). -/

namespace Sys2Proof.Machine

/-! ## The first entry of a sorted directory with a property -/

/-- The entry found is the one of the smallest key. -/
theorem Directory.find?_eq_some_iff {d : Directory} (hs : d.sorted) {p : Entry → Bool} {e : Entry} :
    d.find? p = some e ↔ e ∈ d ∧ p e = true ∧ ∀ x ∈ d, p x = true → e.key ≤ x.key := by
  have hleast {y : Entry} (hy : d.find? p = some y) : ∀ x ∈ d, p x = true → y.key ≤ x.key := by
    obtain ⟨-, l, r, rfl, hl⟩ := List.find?_eq_some_iff_append.mp hy
    obtain ⟨-, hr, -⟩ := List.pairwise_append.mp hs
    intro x hx hpx
    rcases List.mem_append.mp hx with hx | hx
    · exact absurd hpx (by simpa using hl x hx)
    · rcases List.mem_cons.mp hx with rfl | hx
      · exact BitVec.le_refl _
      · exact BitVec.le_of_lt ((List.pairwise_cons.mp hr).1 x hx)
  refine ⟨fun h => ⟨List.mem_of_find?_eq_some h, List.find?_some h, hleast h⟩, fun ⟨he, hpe, hmin⟩ => ?_⟩
  obtain ⟨y, hy⟩ := Option.isSome_iff_exists.mp (List.find?_isSome.mpr ⟨e, he, hpe⟩)
  have hkey : y.key = e.key :=
    BitVec.le_antisymm (hleast hy e he hpe) (hmin y (List.mem_of_find?_eq_some hy) (List.find?_some hy))
  rw [hy, Directory.eq_of_key hs he (List.mem_of_find?_eq_some hy) hkey]

/-! ## RETIRE (R15, R55) -/

/-- A LIVE entry retired (R15). -/
theorem Entry.retire_live {e : Entry} {w : Live} (h : e.body = .live w) (count : Nat) :
    e.retire count = { e with
      flags := { e.flags with superseded := e.flags.superseded || w.confirm.isSome, feedDue := false }
      body := .withdrawing { kind := w.kind, cls := w.cls, version := w.version, length := w.length } count w.slot } := by
  unfold Entry.retire
  simp only [h, Flags.supersede_eq]
  rfl

/-- The directory after a RETIRE of a LIVE entry (R15, R55). -/
theorem Directory.retired {d : Directory} {key : Key} {e : Entry} {w : Live} (he : d.entryOf key = some e) (hbody : e.body = .live w)
    (count : Nat) :
    (d.update key (Entry.retire count)).entryOf key = some { e with
        flags := { e.flags with superseded := e.flags.superseded || w.confirm.isSome, feedDue := false }
        body := .withdrawing { kind := w.kind, cls := w.cls, version := w.version, length := w.length } count w.slot } ∧
      (d.update key (Entry.retire count)).map Entry.key = d.map Entry.key ∧
      ∀ k, k ≠ key → (d.update key (Entry.retire count)).entryOf k = d.entryOf k := by
  refine ⟨?_, d.update_keys key (Entry.retire_key count), fun k hk => d.entryOf_update_other _ (Entry.retire_key count) hk⟩
  rw [Directory.entryOf_update_same _ _ _ (Entry.retire_key count), he, ← Entry.retire_live hbody]
  rfl

/-! ## RETIRE GROUP (R58, R59) -/

theorem groupOf_eq (k : Key) : groupOf k = k.toNat / 4096 := by
  simp [groupOf, BitVec.toNat_ushiftRight, Nat.shiftRight_eq_div_pow]

theorem aboveCursor_iff (cursor : Option Key) (k : Key) : aboveCursor cursor k = true ↔ ∀ c, cursor = some c → c < k := by
  cases cursor <;> simp [aboveCursor]

/-- What the walk still has to visit (R59). -/
theorem leftOfGroup_iff (group : Nat) (last : Option Key) (e : Entry) :
    (groupOf e.key == group && aboveCursor last e.key) = true ↔ e.key.toNat / 4096 = group ∧ ∀ k, last = some k → k < e.key := by
  rw [Bool.and_eq_true, beq_iff_eq, groupOf_eq, aboveCursor_iff]

theorem Directory.nextOfGroup_eq_none {d : Directory} {group : Nat} {last : Option Key} :
    d.nextOfGroup group last = none ↔ ∀ e ∈ d, ¬(e.key.toNat / 4096 = group ∧ ∀ k, last = some k → k < e.key) := by
  simp only [Directory.nextOfGroup, List.find?_eq_none, leftOfGroup_iff]

theorem Directory.nextOfGroup_eq_some {d : Directory} (hs : d.sorted) {group : Nat} {last : Option Key} {e : Entry} (he : e ∈ d)
    (hleft : e.key.toNat / 4096 = group ∧ ∀ k, last = some k → k < e.key)
    (hleast : ∀ x ∈ d, (x.key.toNat / 4096 = group ∧ ∀ k, last = some k → k < x.key) → e.key ≤ x.key) :
    d.nextOfGroup group last = some e := by
  refine (Directory.find?_eq_some_iff hs).mpr ⟨he, (leftOfGroup_iff group last e).mpr hleft, fun x hx hp => ?_⟩
  exact hleast x hx ((leftOfGroup_iff group last x).mp hp)

section WalkStep

variable {s : State} {group retired skipped : Nat} {last : Option Key} {e : Entry}

/-- The walk retires a LIVE entry as RETIRE does (R59). -/
theorem State.walkStep_live {w : Live} (he : s.dir.nextOfGroup group last = some e) (hbody : e.body = .live w) :
    s.walkStep group last retired skipped =
      (s.retireLive e.key w).begin (.groupWalk group (some e.key) (retired + 1) skipped) := by
  simp only [State.walkStep, he, hbody]

/-- Any other entry it skips (R59). -/
theorem State.walkStep_skip (he : s.dir.nextOfGroup group last = some e) (hbody : ∀ w, e.body ≠ .live w) :
    s.walkStep group last retired skipped = s.begin (.groupWalk group (some e.key) retired (skipped + 1)) := by
  unfold State.walkStep
  rw [he]
  dsimp only
  cases hcase : e.body with
  | live w => exact absurd hcase (hbody w)
  | _ => rfl

end WalkStep

/-! ## FEED (R97, R98) -/

/-- Bytes beyond a FEED's count are ignored (R144, R149). -/
theorem parseFeed_full (k1 k0 f1 f0 : Byte) {c : Byte} {data : List Byte} (more : List Byte) (hdata : data.length = c.toNat) :
    parseFeed (k1 :: k0 :: f1 :: f0 :: c :: (data ++ more)) = .feed (k1 ++ k0) (f1.toNat * 256 + f0.toNat) data := by
  have henough : ¬(data ++ more).length < c.toNat := by
    rw [List.length_append]
    omega
  rw [parseFeed, if_neg henough, word16_toNat f1, ← hdata, List.take_left']
  · rfl
  · rfl

/-- A piece that completes the fill (R97): fresh, FEED_DUE cleared, the next fill from 0. -/
theorem Entry.fed_complete {e : Entry} {w : Live} {f : Feed} (hbody : e.body = .live w) (hfeed : w.feed = some f) (offset : Nat) :
    e.fed offset w.length = { e with
      flags := { e.flags with feedDue := false }, body := .live { w with feed := some { f with fill := 0, fresh := true } } } := by
  simp [Entry.fed, hbody, hfeed, Feed.afterPiece, Flags.clearFeedDue]

/-- A piece that does not complete it (R98): at offset 0 it ends the freshness. -/
theorem Entry.fed_partial {e : Entry} {w : Live} {f : Feed} (hbody : e.body = .live w) (hfeed : w.feed = some f) (offset : Nat)
    {fill : Nat} (hfill : fill ≠ w.length) :
    e.fed offset fill = { e with
      body := .live { w with feed := some { f with fill := fill, fresh := f.fresh && decide (0 < offset) } } } := by
  rcases Nat.eq_zero_or_pos offset with rfl | hpos
  · simp [Entry.fed, hbody, hfeed, Feed.afterPiece, hfill]
  · simp [Entry.fed, hbody, hfeed, Feed.afterPiece, hfill, hpos, hpos.ne']

theorem feedResponse_eq (length fill : Nat) :
    feedResponse length fill = if fill = length then [0x00#8, 0x00#8, 0x01#8] else countBytes fill ++ [0x00#8] := by
  unfold feedResponse
  split
  · rw [countBytes_eq]
    rfl
  · rfl

end Sys2Proof.Machine

namespace Sys2Proof.Proofs

open Sys2Proof.Machine

/-- Settles O21. -/
theorem retireMakesTheEntryWithdrawing : Obligations.RetireMakesTheEntryWithdrawing := by
  unfold Obligations.RetireMakesTheEntryWithdrawing
  refine ⟨fun k1 k0 more => ?_, fun v key e w hruns hzero hones he hbody => ?_⟩
  · exact accepted_of_parse (row := .retire) (parse := parseRetire) (fun _ _ => rfl) rfl (by simp only [List.length_cons]; omega)
  · have hkey : ¬badKey key = true := mt (badKey_iff key).mp (not_or.mpr ⟨hzero, hones⟩)
    exact ⟨_, hruns.exec_completion (runRetire_live hkey he hbody), Directory.retired he hbody _⟩

/-- Settles O23: the walk's next entry is the smallest key of the group above the last one visited. -/
theorem retireGroupWalksTheGroup : Obligations.RetireGroupWalksTheGroup := by
  unfold Obligations.RetireGroupWalksTheGroup
  refine ⟨fun s g more hready => ?_, ?_⟩
  · have hlength : (g :: more).length = 1 + more.length := Nat.add_comm _ _
    rw [exec_retireGroup_ready hready, hlength]
    refine ⟨fun hbad => ?_, fun hgood => ?_⟩
    · have hbad : g.toNat > 15 := hbad
      simp only [parseGroup, State.startGroup, if_pos hbad]
      rfl
    · have hgood : ¬g.toNat > 15 := by omega
      simp only [parseGroup, State.startGroup, if_neg hgood]
      rfl
  · intro s g retired skipped last hdir htask left
    have hs : s.dir.sorted := hdir.1
    rw [exec_retireGroupVisit_walk htask]
    refine ⟨fun hnone => ?_, fun e he hleft hleast => ?_⟩
    · rw [State.walkStep_last _ _ (Directory.nextOfGroup_eq_none.mpr hnone)]
      rfl
    · have hnext : s.dir.nextOfGroup g last = some e := Directory.nextOfGroup_eq_some hs he hleft hleast
      refine ⟨fun hbody => ?_, fun w hbody => ⟨_, ?_, Directory.retired (Directory.entryOf_of_mem hs he) hbody _⟩⟩
      · rw [State.walkStep_skip hnext hbody]
        rfl
      · rw [State.walkStep_live hnext hbody]
        rfl

/-- Settles O24. -/
theorem feedPlacesThePiece : Obligations.FeedPlacesThePiece := by
  unfold Obligations.FeedPlacesThePiece
  refine ⟨fun k1 k0 f1 f0 c data more hdata => ?_, ?_⟩
  · refine accepted_of_parse (row := .feed) (parse := parseFeed) (fun _ _ => rfl) (parseFeed_full k1 k0 f1 f0 more hdata) ?_
    simp only [List.length_cons, List.length_append]
    omega
  · intro v key offset data e w f fill hruns hzero hones hpos hmax he hbody hfeed hoffset hfits
    have hkey : ¬badKey key = true := mt (badKey_iff key).mp (not_or.mpr ⟨hzero, hones⟩)
    have hrun : runFeed key offset data v = (v.feedPiece key f offset data, Result.ok (feedResponse w.length fill)) := by
      rw [runFeed_feed hkey hpos hmax he hbody hfeed, if_neg (not_not_intro hoffset), if_neg (Nat.not_lt.mpr hfits)]
    have hentry : (v.dir.update key (Entry.fed offset fill)).entryOf key = some (e.fed offset fill) := by
      rw [Directory.entryOf_update_same _ _ _ (Entry.fed_key offset fill), he]
      rfl
    obtain ⟨houtside, hinside⟩ := read_writePayload v.pool.mem f.back offset data
    refine ⟨v.dir.update key (Entry.fed offset fill), writePayload v.pool.mem f.back offset data, ?_, fun hfull => ?_, fun hpart => ?_,
      v.dir.update_keys key (Entry.fed_key offset fill), fun k hk => v.dir.entryOf_update_other _ (Entry.fed_key offset fill) hk,
      houtside, hinside⟩
    · rw [hruns.exec_completion hrun, feedResponse_eq]
      rfl
    · rw [hentry, hfull, Entry.fed_complete hbody hfeed]
    · rw [hentry, Entry.fed_partial hbody hfeed offset (Nat.ne_of_lt hpart)]

end Sys2Proof.Proofs

/-! QUERY and NOTICE (R17, R140, R141, R154, R158). -/

namespace Sys2Proof.Machine

/-! ## QUERY's fields (R154, R158) -/

/-- The notice flags as a byte, bit by bit (R158). -/
theorem Flags.byte_getLsbD (f : Flags) :
    f.byte.getLsbD 0 = f.confirmed ∧ f.byte.getLsbD 1 = f.overdue ∧ f.byte.getLsbD 2 = f.superseded ∧
      f.byte.getLsbD 3 = f.feedDue ∧ f.byte.getLsbD 4 = f.feedStale ∧ f.byte.getLsbD 5 = f.withdrawn ∧
      f.byte.getLsbD 6 = false ∧ f.byte.getLsbD 7 = false := by
  have hbits : ∀ b5 b4 b3 b2 b1 b0 : Bool,
      let x : Byte := 0#2 ++ BitVec.ofBool b5 ++ BitVec.ofBool b4 ++ BitVec.ofBool b3 ++ BitVec.ofBool b2 ++ BitVec.ofBool b1 ++
        BitVec.ofBool b0
      x.getLsbD 0 = b0 ∧ x.getLsbD 1 = b1 ∧ x.getLsbD 2 = b2 ∧ x.getLsbD 3 = b3 ∧ x.getLsbD 4 = b4 ∧ x.getLsbD 5 = b5 ∧
        x.getLsbD 6 = false ∧ x.getLsbD 7 = false := by decide
  exact hbits _ _ _ _ _ _

/-- What the presence byte says: content, feed fields, withdraw remaining, confirm, slot (R158). -/
structure PresenceBits (p : Byte) (content feed remaining confirm slot : Bool) : Prop where
  content : p.getLsbD 0 = content
  feed : p.getLsbD 1 = feed
  remaining : p.getLsbD 2 = remaining
  confirm : p.getLsbD 3 = confirm
  slot : p.getLsbD 4 = slot

theorem presenceBits_append (content feed remaining confirm slot : Bool) :
    PresenceBits (0#3 ++ BitVec.ofBool slot ++ BitVec.ofBool confirm ++ BitVec.ofBool remaining ++ BitVec.ofBool feed ++
      BitVec.ofBool content) content feed remaining confirm slot := by
  have hbits : ∀ b4 b3 b2 b1 b0 : Bool,
      let x : Byte := 0#3 ++ BitVec.ofBool b4 ++ BitVec.ofBool b3 ++ BitVec.ofBool b2 ++ BitVec.ofBool b1 ++ BitVec.ofBool b0
      x.getLsbD 0 = b0 ∧ x.getLsbD 1 = b1 ∧ x.getLsbD 2 = b2 ∧ x.getLsbD 3 = b3 ∧ x.getLsbD 4 = b4 := by decide
  obtain ⟨h0, h1, h2, h3, h4⟩ := hbits slot confirm remaining feed content
  exact ⟨h0, h1, h2, h3, h4⟩

theorem Body.presence_staged (n : SlotNo) : PresenceBits (Body.staged n).presence false false false false true :=
  presenceBits_append ..

theorem Body.presence_live (v : Live) : PresenceBits (Body.live v).presence true v.feed.isSome false v.confirm.isSome v.slot.isSome :=
  presenceBits_append ..

theorem Body.presence_withdrawing (l : Last) (r : Nat) (o : Option SlotNo) :
    PresenceBits (Body.withdrawing l r o).presence true false true false o.isSome :=
  presenceBits_append ..

theorem Body.presence_spent (l : Last) : PresenceBits (Body.spent l).presence true false false false false :=
  presenceBits_append ..

/-- QUERY's answer behind sent-this-cycle: from the withdraw remaining count to the block indices (R154). -/
def Entry.queryTail (e : Entry) (queued : Bool) : List Byte :=
  e.body.remainingByte :: (e.body.confirmBytes ++ slotByte e.body.slot :: e.flags.byte :: yesNo queued :: (e.body.feedBytes ++
    [byteOf e.body.front.length, byteOf e.body.back.length] ++ chainBytes e.body.front ++ chainBytes e.body.back))

theorem Entry.queryResponse_eq (e : Entry) (queued : Bool) : e.queryResponse queued =
    bytes16 e.key ++ [e.body.stateByte, e.body.presence] ++ e.body.contentBytes ++ [if e.sent then 1#8 else 0#8] ++
      e.queryTail queued := by
  simp [Entry.queryResponse, Entry.queryTail, yesNo]

theorem Body.contentBytes_length (b : Body) : b.contentBytes.length = 5 := by
  cases b <;> rfl

theorem Body.contentBytes_live (w : Live) : (Body.live w).contentBytes =
    [if w.feed.isSome then 1#8 else 0#8, BitVec.ofNat 8 w.cls, w.version] ++ countBytes w.length := by
  simp only [Body.contentBytes, Live.kind]
  cases w.feed <;> rfl

/-- Confirm age and overdue-raised are two bytes (R154). -/
theorem Body.confirmBytes_eq (b : Body) : ∃ age raised, b.confirmBytes = [age, raised] := by
  unfold Body.confirmBytes
  repeat' split
  all_goals exact ⟨_, _, rfl⟩

/-- The fields of the tail that every entry has (R154). -/
theorem Entry.queryTail_fields (e : Entry) (queued : Bool) :
    (e.queryTail queued)[0]? = some e.body.remainingByte ∧ (e.queryTail queued)[3]? = some (slotByte e.body.slot) ∧
      (e.queryTail queued)[4]? = some e.flags.byte ∧ (e.queryTail queued)[5]? = some (yesNo queued) ∧
      (∀ age raised, e.body.confirmBytes = [age, raised] →
        (e.queryTail queued)[1]? = some age ∧ (e.queryTail queued)[2]? = some raised) ∧
      (e.queryTail queued).drop 6 = e.body.feedBytes ++ [byteOf e.body.front.length, byteOf e.body.back.length] ++
        chainBytes e.body.front ++ chainBytes e.body.back := by
  obtain ⟨age, raised, hconfirm⟩ := e.body.confirmBytes_eq
  simp [Entry.queryTail, hconfirm]

theorem runQuery_badKey {s : State} {key : Key} (hkey : badKey key = true) : runQuery key s = (s, Result.refuse .badKey) :=
  if_pos hkey

theorem runQuery_noKey {s : State} {key : Key} (hkey : ¬badKey key = true) (he : s.dir.entryOf key = none) :
    runQuery key s = (s, Result.refuse .noKey) := by
  simp only [runQuery, if_neg hkey, he]

theorem runQuery_entry {s : State} {key : Key} {e : Entry} (hkey : ¬badKey key = true) (he : s.dir.entryOf key = some e) :
    runQuery key s = (s, Result.ok (e.queryResponse (s.engine.queue.contains key))) := by
  simp only [runQuery, if_neg hkey, he]

/-! ## NOTICE (R140, R141) -/

/-- The scan looks above the cursor first, then up to it (R140). -/
theorem State.noticed_eq (s : State) : s.noticed =
    (s.dir.find? fun e => decide (s.notice.cursor < e.key) && !e.flags.isEmpty).or
      (s.dir.find? fun e => !decide (s.notice.cursor < e.key) && !e.flags.isEmpty) := by
  simp only [State.noticed, Directory.scanOrder, List.find?_append, List.find?_filter, Bool.decide_and, Bool.decide_eq_true]

theorem Flags.not_isEmpty_iff (f : Flags) : (!f.isEmpty) = true ↔ f ≠ Flags.none := by
  rw [Bool.not_eq_true', ← Bool.not_eq_true, f.isEmpty_iff]

theorem State.noticed_eq_none {s : State} (h : ∀ e ∈ s.dir, e.flags = Flags.none) : s.noticed = none := by
  rw [State.noticed, List.find?_eq_none]
  intro e he
  rw [Flags.not_isEmpty_iff]
  refine not_not_intro (h e ?_)
  rw [Directory.scanOrder, List.mem_append, List.mem_filter, List.mem_filter] at he
  exact he.elim And.left And.left

/-- The flagged entry of the smallest key above the cursor, or, with none there, of the smallest key (R140). -/
theorem State.noticed_eq_some {s : State} (hs : s.dir.sorted) {e : Entry} (he : e ∈ s.dir) (hflags : e.flags ≠ Flags.none)
    (hscan : s.notice.cursor < e.key ∧ (∀ x ∈ s.dir, x.flags ≠ Flags.none → s.notice.cursor < x.key → e.key ≤ x.key) ∨
      e.key ≤ s.notice.cursor ∧ ∀ x ∈ s.dir, x.flags ≠ Flags.none → x.key ≤ s.notice.cursor ∧ e.key ≤ x.key) :
    s.noticed = some e := by
  rw [State.noticed_eq]
  obtain ⟨habove, hleast⟩ | ⟨hbelow, hleast⟩ := hscan
  · have hfirst : s.dir.find? (fun e => decide (s.notice.cursor < e.key) && !e.flags.isEmpty) = some e := by
      refine (Directory.find?_eq_some_iff hs).mpr ⟨he, ?_, fun x hx hp => ?_⟩
      · rw [Bool.and_eq_true, decide_eq_true_eq, Flags.not_isEmpty_iff]
        exact ⟨habove, hflags⟩
      · rw [Bool.and_eq_true, decide_eq_true_eq, Flags.not_isEmpty_iff] at hp
        exact hleast x hx hp.2 hp.1
    rw [hfirst, Option.some_or]
  · have hfirst : s.dir.find? (fun e => decide (s.notice.cursor < e.key) && !e.flags.isEmpty) = none := by
      refine List.find?_eq_none.mpr fun x hx hp => ?_
      rw [Bool.and_eq_true, decide_eq_true_eq, Flags.not_isEmpty_iff] at hp
      obtain ⟨hle, -⟩ := hleast x hx hp.2
      exact absurd hp.1 (BitVec.not_lt.mpr hle)
    have hsecond : s.dir.find? (fun e => !decide (s.notice.cursor < e.key) && !e.flags.isEmpty) = some e := by
      refine (Directory.find?_eq_some_iff hs).mpr ⟨he, ?_, fun x hx hp => ?_⟩
      · rw [Bool.and_eq_true, Bool.not_eq_true', decide_eq_false_iff_not, Flags.not_isEmpty_iff]
        exact ⟨BitVec.not_lt.mpr hbelow, hflags⟩
      · rw [Bool.and_eq_true, Flags.not_isEmpty_iff] at hp
        exact (hleast x hx hp.2).2
    rw [hfirst, hsecond, Option.none_or]

theorem runNotice_none {s : State} (h : s.noticed = none) :
    runNotice s = (s, Result.ok [0x00#8, 0x00#8, 0x00#8, 0x00#8, 0x00#8]) := by
  simp only [runNotice, h]
  rfl

theorem runNotice_some {s : State} {e : Entry} (h : s.noticed = some e) :
    runNotice s = ({ s with dir := s.dir.collected e, notice := { s.notice with cursor := e.key } },
      Result.ok (bytes16 e.key ++ [e.body.stateByte, e.body.versionByte, e.flags.byte])) := by
  simp only [runNotice, h]

/-- A SPENT entry leaves the directory with its notice (R17, R141). -/
theorem Directory.collected_spent (d : Directory) {e : Entry} (h : e.isSpent = true) : (d.collected e).entryOf e.key = none := by
  rw [Directory.collected, if_pos h, Directory.entryOf_remove_same]

theorem Directory.collected_kept {d : Directory} (hs : d.sorted) {e : Entry} (he : e ∈ d) (h : e.isSpent = false) :
    (d.collected e).entryOf e.key = some { e with flags := Flags.none } := by
  have hupdate := d.entryOf_update_same e.key (fun x => { x with flags := Flags.none }) fun _ => rfl
  rw [Directory.entryOf_of_mem hs he] at hupdate
  rw [Directory.collected, if_neg (by simp [h])]
  exact hupdate

theorem Directory.collected_other (d : Directory) (e : Entry) {k : Key} (hk : k ≠ e.key) :
    (d.collected e).entryOf k = d.entryOf k := by
  unfold Directory.collected
  split
  · exact d.entryOf_remove_other hk
  · exact Directory.entryOf_update_other d _ (fun _ => rfl) hk

end Sys2Proof.Machine

namespace Sys2Proof.Proofs

open Sys2Proof.Machine

/-- Settles O27: the fields of the answer that every entry has, then those of each body. -/
theorem queryReportsTheEntry : Obligations.QueryReportsTheEntry := by
  unfold Obligations.QueryReportsTheEntry
  refine ⟨fun b => by cases b <;> rfl, rfl, rfl, fun b => by cases b <;> rfl, Flags.byte_getLsbD, fun k1 k0 more => ?_,
    fun v key hruns => ⟨fun hbad => ?_, fun hzero hones hnone => ?_, fun e hzero hones he => ?_⟩⟩
  · exact accepted_of_parse (row := .query) (parse := parseQuery) (fun _ _ => rfl) rfl (by simp only [List.length_cons]; omega)
  · exact hruns.answers_of_refused (runQuery_badKey ((badKey_iff key).mpr hbad))
  · exact hruns.answers_of_refused (runQuery_noKey (mt (badKey_iff key).mp (not_or.mpr ⟨hzero, hones⟩)) hnone)
  · have hanswer := hruns.answers_of_ok (runQuery_entry (mt (badKey_iff key).mp (not_or.mpr ⟨hzero, hones⟩)) he)
    obtain rfl := Directory.entryOf_key he
    obtain ⟨hremaining, hslot, hflags, hqueued, hconfirm, hrest⟩ := e.queryTail_fields (v.engine.queue.contains e.key)
    rw [Entry.queryResponse_eq] at hanswer
    refine ⟨e.body.presence, e.body.contentBytes, _, hanswer, e.body.contentBytes_length, ?_⟩
    have hqueued' : yesNo (v.engine.queue.contains e.key) = if e.key ∈ v.engine.queue then 1#8 else 0#8 := by
      simp [yesNo]
    rw [hslot, hflags, hqueued, hqueued']
    cases hbody : e.body with
    | staged n =>
      have hp := Body.presence_staged n
      rw [hbody] at hremaining hconfirm hrest
      obtain ⟨hage, hraised⟩ := hconfirm _ _ rfl
      exact ⟨hp.content.trans (by simp), hp.slot, rfl, rfl, rfl, fun _ => ⟨hp.feed, hp.confirm, hage, hraised, hrest⟩,
        fun m hm => ⟨rfl, hp.remaining, hremaining⟩, nofun, nofun, nofun⟩
    | live w =>
      have hp := Body.presence_live w
      rw [hbody] at hremaining hconfirm hrest
      refine ⟨hp.content.trans (by simp), hp.slot, congrArg some ?_, rfl, rfl, fun h => absurd rfl (h w), nofun, ?_,
        nofun, nofun⟩
      · cases hslot : w.slot <;> simp [Body.slot, hslot, slotByte, byteOf]
      · rintro w' hw'
        obtain rfl := Body.live.inj hw'
        refine ⟨Body.contentBytes_live w, hp.feed, hp.remaining, hp.confirm, hremaining, fun hnone => hconfirm _ _ ?_,
          fun c hc => hconfirm _ _ ?_, fun f hf => hrest.trans ?_, fun hnone => hrest.trans ?_⟩
        · simp [Body.confirmBytes, hnone]
        · simp [Body.confirmBytes, hc, byteOf, yesNo]
        · simp [Body.feedBytes, Body.front, Body.back, hf, chainBytes, byteOf, yesNo]
        · simp [Body.feedBytes, Body.front, Body.back, hnone, chainBytes, byteOf]
    | withdrawing l r o =>
      have hp := Body.presence_withdrawing l r o
      rw [hbody] at hremaining hconfirm hrest
      obtain ⟨hage, hraised⟩ := hconfirm _ _ rfl
      refine ⟨hp.content.trans (by simp), hp.slot, congrArg some ?_, rfl, rfl,
        fun _ => ⟨hp.feed, hp.confirm, hage, hraised, hrest⟩, nofun, nofun, ?_, nofun⟩
      · cases o <;> rfl
      · rintro l' r' o' ⟨⟩
        exact ⟨rfl, hp.remaining, hremaining⟩
    | spent l =>
      have hp := Body.presence_spent l
      rw [hbody] at hremaining hconfirm hrest
      obtain ⟨hage, hraised⟩ := hconfirm _ _ rfl
      refine ⟨hp.content.trans (by simp), hp.slot, rfl, rfl, rfl,
        fun _ => ⟨hp.feed, hp.confirm, hage, hraised, hrest⟩, nofun, nofun, nofun, ?_⟩
      rintro l' ⟨⟩
      exact ⟨rfl, hp.remaining, hremaining⟩

/-- Settles O28. -/
theorem noticeCollectsInScanOrder : Obligations.NoticeCollectsInScanOrder := by
  unfold Obligations.NoticeCollectsInScanOrder
  refine ⟨fun args => accepted_of_exec_accept fun _ => rfl, ⟨fun _ => rfl, fun _ _ _ => rfl, fun _ => rfl⟩, Entry.isSpent_iff,
    fun v hdir hruns => ⟨fun hnone => ?_, fun e he hflags hscan => ?_⟩⟩
  · exact hruns.answers_of_ok (runNotice_none (State.noticed_eq_none hnone))
  · have hs : v.dir.sorted := hdir.1
    exact ⟨_, hruns.exec_completion (runNotice_some (State.noticed_eq_some hs he hflags hscan)), v.dir.collected_spent,
      Directory.collected_kept hs he, fun k hk => v.dir.collected_other e hk⟩

end Sys2Proof.Proofs

/-! START, CONFIGURE, CLEAR, and STOP outside RUNNING (R67, R109, R114, R156, R157). -/

namespace Sys2Proof.Machine

/-! ## START (R109) -/

theorem runStart_keys {s : State} (h : s.link.state = .halted ∨ s.link.state = .fault) : runStart s = (s.enterKeying, Result.ok []) := by
  unfold runStart
  obtain h | h := h
  · rw [h]
  · rw [h]

theorem runStart_refused {s : State} (hhalted : s.link.state ≠ .halted) (hfault : s.link.state ≠ .fault) :
    runStart s = (s, Result.refuse .state) := by
  unfold runStart
  cases hstate : s.link.state with
  | halted => exact absurd hstate hhalted
  | fault => exact absurd hstate hfault
  | _ => rfl

theorem Link.keyed_keyed (s : State) : (s.link.keyed s.params).state.keyed = true := by
  have hkeyed := s.enterKeying_keyed
  rwa [State.enterKeying_eq] at hkeyed

/-! ## At rest (R156, R157) -/

theorem LinkState.atRest_iff (l : LinkState) : l.atRest = true ↔ l = .halted ∨ l = .fault := by
  cases l <;> simp [LinkState.atRest]

/-! ## CONFIGURE (R67, R156) -/

/-- A row of the parameter table takes the values of its range (R156). -/
theorem Params.set_of_row (p : Params) (value : Nat) : ∀ row ∈ configureTable,
    p.set row.1 value = if row.2.1 ≤ value ∧ value ≤ row.2.2.1 then some (row.2.2.2 p value) else none := by
  intro row hrow
  fin_cases hrow
  all_goals simp [Params.set]

/-- A code outside the parameter table sets nothing (R156). -/
theorem Params.set_of_no_row (p : Params) {code : Byte} (value : Nat) (h : ∀ row ∈ configureTable, row.1 ≠ code) :
    p.set code value = none := by
  have hcode : ∀ n ∈ [0x01, 0x02, 0x03, 0x04, 0x05, 0x06, 0x07, 0x08, 0x09, 0x0A, 0x0B], code.toNat ≠ n := by
    intro n hn hc
    obtain rfl : code = BitVec.ofNat 8 n := BitVec.eq_of_toNat_eq (by rw [hc]; simp at hn ⊢; omega)
    have hcodes : BitVec.ofNat 8 n ∈ configureTable.map Prod.fst := by fin_cases hn <;> decide
    obtain ⟨row, hrow, heq⟩ := List.mem_map.mp hcodes
    exact h row hrow heq
  unfold Params.set
  split
  case h_12 => rfl
  all_goals
    rename_i hvalue
    exact absurd hvalue (hcode _ (by decide))

/-- Only the row of W sets W. -/
theorem configureTable_withdrawals (p : Params) (value : Nat) : ∀ row ∈ configureTable, row.1 = 0x04#8 →
    (row.2.2.2 p value).withdrawals = value := by
  simp only [configureTable, List.forall_mem_cons]
  refine ⟨?_, ?_, ?_, fun _ => trivial, ?_, ?_, ?_, ?_, ?_, ?_, ?_, fun _ h => absurd h List.not_mem_nil⟩
  all_goals exact fun h => absurd h (by decide)

theorem runConfigure_refused {s : State} (code : Byte) (value : Nat) (h : ¬s.link.state.atRest = true) :
    runConfigure code value s = (s, Result.refuse .state) :=
  if_neg h

theorem runConfigure_badParam {s : State} {code : Byte} {value : Nat} (h : s.link.state.atRest = true)
    (hset : s.params.set code value = none) : runConfigure code value s = (s, Result.refuse .badParam) := by
  simp only [runConfigure, if_pos h, hset]

theorem runConfigure_set {s : State} {code : Byte} {value : Nat} {p : Params} (h : s.link.state.atRest = true)
    (hset : s.params.set code value = some p) : runConfigure code value s =
      ({ s with params := p, dir := if code = 0x04#8 then s.dir.map (Entry.clip p.withdrawals) else s.dir }, Result.ok []) := by
  simp only [runConfigure, if_pos h, hset]

/-! ## CLEAR (R157) -/

theorem exec_clear_ready {s : State} (h : s.Ready) (args : List Byte) :
    exec (.clear args) s = .next { s with port := { s.transacted args.length with refused := false } }.startClear := by
  obtain ⟨hrstn, hidle⟩ := h
  simp only [exec, execClear]
  rw [State.gated_idle s _ _ hrstn hidle]
  rfl

theorem State.startClear_refused {s : State} (h : ¬s.link.state.atRest = true) : s.startClear = s.finish (Result.refuse .state) :=
  if_neg h

theorem State.startClear_begins {s : State} (h : s.link.state.atRest = true) : s.startClear = s.begin .clearing :=
  if_pos h

/-! ## STOP outside RUNNING (R114) -/

/-- STOP acts at its CSN rise (R114, R147). -/
theorem exec_stop {s : State} (hrstn : s.rstn = true) (p : Byte) (more : List Byte) :
    exec (.stop (p :: more)) s = .next ({ s with port := s.transacted (1 + more.length) }.takeStop (stopPointOf p)) := by
  have hlength : (p :: more).length = 1 + more.length := Nat.add_comm _ _
  simp only [exec, execStop, State.taken, if_pos hrstn, hlength]
  rfl

theorem State.takeStop_of_halted {s : State} (h : s.link.state = .halted) (p : StopPoint) : s.takeStop p = s := by
  unfold State.takeStop
  rw [h]

theorem State.takeStop_of_still {s : State} (hhalted : s.link.state ≠ .halted) (hrunning : s.link.state ≠ .running) (p : StopPoint) :
    s.takeStop p = s.stopToHalted := by
  unfold State.takeStop
  cases hstate : s.link.state with
  | halted => exact absurd hstate hhalted
  | running => exact absurd hstate hrunning
  | _ => rfl

theorem State.takeStop_of_running {s : State} (h : s.link.state = .running) (p : StopPoint) : s.takeStop p = s.stopRunning p := by
  unfold State.takeStop
  rw [h]

end Sys2Proof.Machine

namespace Sys2Proof.Proofs

open Sys2Proof.Machine

/-- Settles O29. -/
theorem startKeysTheLink : Obligations.StartKeysTheLink := by
  unfold Obligations.StartKeysTheLink
  refine ⟨fun args => accepted_of_exec_accept fun _ => rfl, fun v hruns => ⟨fun hrest => ⟨?_, Link.keyed_keyed v⟩, ?_⟩⟩
  · rw [hruns.exec_completion (runStart_keys hrest), State.enterKeying_eq]
    rfl
  · exact fun hhalted hfault => hruns.answers_of_refused (runStart_refused hhalted hfault)

/-- Settles O30. -/
theorem configureFollowsTheTable : Obligations.ConfigureFollowsTheTable := by
  unfold Obligations.ConfigureFollowsTheTable
  refine ⟨fun c v1 v0 more => ?_, fun v code value hruns => ⟨fun hhalted hfault => ?_, fun hstate => ?_⟩⟩
  · refine accepted_of_parse (row := .configure) (parse := parseConfigure) (fun _ _ => rfl) ?_ (by simp only [List.length_cons]; omega)
    rw [← word16_toNat]
    rfl
  · refine hruns.answers_of_refused (runConfigure_refused code value fun hrest => ?_)
    exact ((LinkState.atRest_iff _).mp hrest).elim hhalted hfault
  · have hrest := (LinkState.atRest_iff _).mpr hstate
    refine ⟨fun hno => hruns.answers_of_refused (runConfigure_badParam hrest (v.params.set_of_no_row value hno)), ?_⟩
    rintro row hrow rfl
    have hset := v.params.set_of_row value row hrow
    refine ⟨fun hout => ?_, fun hlow hhigh => ?_⟩
    · rw [if_neg (by omega)] at hset
      exact hruns.answers_of_refused (runConfigure_badParam hrest hset)
    · rw [if_pos ⟨hlow, hhigh⟩] at hset
      rw [hruns.exec_completion (runConfigure_set hrest hset)]
      by_cases hcode : row.1 = 0x04#8
      · rw [configureTable_withdrawals v.params value row hrow hcode]
        rfl
      · simp only [if_neg hcode]
        rfl

/-- Settles O31. -/
theorem clearEmptiesTheRecordStore : Obligations.ClearEmptiesTheRecordStore := by
  unfold Obligations.ClearEmptiesTheRecordStore
  refine ⟨fun s args hready => ?_, fun s htask => ⟨Slots.allFree, Slots.allFree_at, ?_⟩⟩
  · rw [exec_clear_ready hready]
    refine ⟨fun hhalted hfault => ?_, fun hstate => ?_⟩
    · refine congrArg Host.Outcome.next (State.startClear_refused fun hrest => ?_)
      exact ((LinkState.atRest_iff _).mp hrest).elim hhalted hfault
    · refine congrArg Host.Outcome.next (State.startClear_begins ?_)
      exact (LinkState.atRest_iff _).mpr hstate
  · rw [exec_clearCompletion_clearing htask, State.clearStore, Pool.rebuilt, Config.poolBlocks]
    rfl

/-- Settles O32. -/
theorem stopOutsideRunningHalts : Obligations.StopOutsideRunningHalts := by
  unfold Obligations.StopOutsideRunningHalts
  intro s hrstn
  refine ⟨?_, fun p more => ?_⟩
  · simp only [exec, execStop, State.taken, if_pos hrstn]
    rfl
  · rw [exec_stop hrstn]
    refine ⟨fun hhalted => ?_, fun hhalted hrunning => ?_⟩
    · refine congrArg Host.Outcome.next (State.takeStop_of_halted ?_ _)
      exact hhalted
    · refine congrArg Host.Outcome.next (State.takeStop_of_still ?_ ?_ _)
      · exact hhalted
      · exact hrunning

end Sys2Proof.Proofs

/-! STOP in RUNNING and the stop points (R29, R88 to R92, R115, R116). -/

namespace Sys2Proof.Machine

/-! ## Which frame ends next -/

theorem State.nextEnding_eq_some {s : State} {f : AirFrame} : s.nextEnding = some f ↔
    s.engine.onAir = some f ∨ s.engine.onAir = none ∧ ∃ w, s.encoder.waiting = some w ∧ w.frame = f := by
  unfold State.nextEnding
  cases s.engine.onAir <;> simp

theorem State.nextEnding_eq_none {s : State} : s.nextEnding = none ↔ s.engine.onAir = none ∧ s.encoder.waiting = none := by
  unfold State.nextEnding
  cases s.engine.onAir <;> simp

theorem State.nextEnding_isSome {s : State} : s.nextEnding.isSome = true ↔ s.engine.onAir ≠ none ∨ s.encoder.waiting ≠ none := by
  rw [Option.isSome_iff_ne_none, Ne, State.nextEnding_eq_none, not_and_or]

/-! ## The point a STOP names, and the earlier of two (R115, R158) -/

theorem stopPointOf_immediate {p : Byte} (hframe : p ≠ 2#8) (hcycle : p ≠ 3#8) : stopPointOf p = .immediate := by
  rw [stopPointOf, if_neg hframe, if_neg hcycle]

theorem stopPointOf_ne_none (p : Byte) : stopPointOf p ≠ .none := by
  unfold stopPointOf
  split
  · exact nofun
  · split
    · exact nofun
    · exact nofun

theorem StopPoint.earlier_immediate (p : StopPoint) : p.earlier .immediate = .immediate := by
  cases p <;> rfl

theorem StopPoint.earlier_frame {p : StopPoint} (h : p ≠ .immediate) : p.earlier .frame = .frame := by
  cases p with
  | immediate => exact absurd rfl h
  | _ => rfl

theorem StopPoint.earlier_ne_none (p : StopPoint) {q : StopPoint} (h : q ≠ .none) : p.earlier q ≠ .none := by
  cases p with
  | none => exact h
  | immediate => exact nofun
  | frame => cases q <;> exact nofun
  | cycle => cases q <;> exact nofun

section StopRunning

variable {s : State} {p : StopPoint}

/-- While IMMEDIATE is pending a further STOP changes nothing (R115). -/
theorem State.stopRunning_pending (h : s.link.stop = .immediate) : s.stopRunning p = s :=
  if_pos h

theorem State.stopRunning_immediate (h : s.link.stop ≠ .immediate) (hpoint : s.link.stop.earlier p = .immediate) :
    s.stopRunning p = (s.withStop .immediate).reachImmediate := by
  rw [State.stopRunning, if_neg h, hpoint]
  rfl

theorem State.stopRunning_frame (h : s.link.stop ≠ .immediate) (hpoint : s.link.stop.earlier p = .frame) :
    s.stopRunning p = (s.withStop .frame).reachFrame := by
  rw [State.stopRunning, if_neg h, hpoint]
  rfl

theorem State.stopRunning_cycle (h : s.link.stop ≠ .immediate) (hpoint : s.link.stop.earlier p = .cycle) :
    s.stopRunning p = (s.withStop .cycle).reachCycle := by
  rw [State.stopRunning, if_neg h, hpoint]
  rfl

/-! ## Points reached at the completion -/

theorem State.reachFrame_busy (h : s.nextEnding.isSome = true) : s.reachFrame = s :=
  if_pos h

theorem State.reachFrame_open (hnext : s.nextEnding = none) (hopen : s.cycleOpen = true) :
    s.reachFrame = s.truncatedEnd s.bytesToFinish := by
  rw [State.reachFrame, if_neg (by simp [hnext]), if_pos hopen]

theorem State.reachCycle_busy (h : s.nextEnding.isSome = true ∨ s.cycleOpen = true) : s.reachCycle = s := by
  refine if_neg ?_
  rw [Bool.and_eq_true, Option.isNone_iff_eq_none, Bool.not_eq_true']
  rintro ⟨hnext, hopen⟩
  simp [hnext, hopen] at h

theorem State.reachImmediate_open (hopen : s.cycleOpen = true) : s.reachImmediate = s.earlyEnd.beginFrameAfter s.bytesToFinish .abort :=
  if_pos hopen

theorem State.reachImmediate_cycleEnd (hclosed : s.cycleOpen = false) {f : CycleEndFrame} (hnext : s.nextEnding = some (.cycleEnd f)) :
    s.reachImmediate = { s with engine := { s.engine with truncPrev := true } }.beginFrameAfter s.bytesToFinish .abort := by
  rw [State.reachImmediate, if_neg (by simp [hclosed]), hnext]

theorem State.reachImmediate_abort (hclosed : s.cycleOpen = false) (hnext : s.nextEnding = some .abort) : s.reachImmediate = s := by
  rw [State.reachImmediate, if_neg (by simp [hclosed]), hnext]

/-- With nothing to send every point is reached at once (R92, R116). -/
theorem State.stopRunning_idle (h : s.link.stop ≠ .immediate) (hp : p ≠ .none) (hclosed : s.cycleOpen = false)
    (hnext : s.nextEnding = none) : s.stopRunning p = s.enterHalted := by
  have hpoint := s.link.stop.earlier_ne_none hp
  cases hq : s.link.stop.earlier p with
  | none => exact absurd hq hpoint
  | immediate =>
    have hnext' : (s.withStop .immediate).nextEnding = none := hnext
    have hclosed' : ¬(s.withStop .immediate).cycleOpen = true := Bool.not_eq_true _ ▸ hclosed
    rw [State.stopRunning_immediate h hq, State.reachImmediate, if_neg hclosed', hnext']
    rfl
  | frame =>
    have hnext' : ¬(s.withStop .frame).nextEnding.isSome = true := by rw [show (s.withStop .frame).nextEnding = none from hnext]; exact nofun
    have hclosed' : ¬(s.withStop .frame).cycleOpen = true := Bool.not_eq_true _ ▸ hclosed
    rw [State.stopRunning_frame h hq, State.reachFrame, if_neg hnext', if_neg hclosed']
    rfl
  | cycle =>
    have hidle : ((s.withStop .cycle).nextEnding.isNone && !(s.withStop .cycle).cycleOpen) = true := by
      rw [show (s.withStop .cycle).nextEnding = none from hnext, show (s.withStop .cycle).cycleOpen = false from hclosed]
      rfl
    rw [State.stopRunning_cycle h hq, State.reachCycle, if_pos hidle]
    rfl

end StopRunning

/-! ## A frame behind the bytes to finish, and the early end -/

theorem State.beginFrameAfter_eq (s : State) (lead : List Byte) (f : AirFrame) : s.beginFrameAfter lead f = { s with
    engine := { s.engine with onAir := if lead = [] then some f else none }
    encoder := { Encoder.idle with waiting := if lead = [] then none else some { lead := lead, frame := f } } } := by
  unfold State.beginFrameAfter
  split
  · rfl
  · rfl

theorem Pool.releaseHold_eq (p : Pool) : p.releaseHold = p.heldReleased := by
  obtain ⟨free, hold, mem⟩ := p
  cases hold <;> simp [Pool.releaseHold, Pool.heldReleased]

/-- The queue of an early end, key by key (R85, R88). -/
theorem State.earlyEnd_queue_eq (s : State) : s.earlyEnd.engine.queue = s.earlyQueue := by
  rw [State.earlyEnd_queue, State.queueWithOwed, State.earlyQueue]
  cases s.engine.onAir.bind AirFrame.key with
  | none => simp [queueWithAbandoned]
  | some a =>
    have hqueue (k : Key) : (k != a) = decide (some a ≠ some k) := by
      rw [Bool.eq_iff_iff, bne_iff_ne, decide_eq_true_eq, Ne, Ne, Option.some.injEq, eq_comm]
    have howed (k : Key) : (!(a :: s.engine.queue.filter (fun x => x != a)).contains k) =
        decide (some a ≠ some k ∧ k ∉ s.engine.queue) := by
      rw [Bool.eq_iff_iff]
      simp only [Bool.not_eq_true', List.contains_eq_mem, decide_eq_false_iff_not, List.mem_cons, List.mem_filter, bne_iff_ne, ne_eq,
        Option.some.injEq, decide_eq_true_eq]
      tauto
    simp only [queueWithAbandoned, howed]
    simp only [hqueue, Option.toList_some, List.cons_append, List.nil_append]

/-- The early end (R29, R88). -/
theorem State.earlyEnd_eq (s : State) : s.earlyEnd = { s with
    pool := s.pool.heldReleased
    engine := { s.engine with queue := s.earlyQueue, truncPrev := true, phase := .between, onAir := none } } := by
  rw [← s.earlyEnd_queue_eq, ← Pool.releaseHold_eq]
  rfl

/-- The early end with the frame that follows it (R88 to R90). -/
theorem State.earlyEnd_beginFrameAfter (s : State) (lead : List Byte) (f : AirFrame) : s.earlyEnd.beginFrameAfter lead f = { s with
    pool := s.pool.heldReleased
    engine := { s.engine with
      queue := s.earlyQueue, truncPrev := true, phase := .between, onAir := if lead = [] then some f else none }
    encoder := { Encoder.idle with waiting := if lead = [] then none else some { lead := lead, frame := f } } } := by
  rw [State.beginFrameAfter_eq, State.earlyEnd_eq]

/-! ## The bytes to finish (R89, R90, R124, R125) -/

section BytesToFinish

variable {s : State}

theorem State.bytesToFinish_pair {f : AirFrame} (hair : s.engine.onAir = some f) (hpair : s.encoder.pairFirst = true) :
    s.bytesToFinish = [marker, marker] := by
  simp [State.bytesToFinish, hair, hpair]

theorem State.bytesToFinish_onAir {f : AirFrame} (hair : s.engine.onAir = some f) (hpair : s.encoder.pairFirst = false)
    (hkeyed : s.link.state.keyed = true) :
    s.bytesToFinish = if s.encoder.place < f.byteLength then s.txdByte.toList else [] := by
  rw [State.txdByte_of_onAir hkeyed hair, State.bytesToFinish, hair]
  by_cases hplace : s.encoder.place < f.byteLength
  · simp [hpair, hplace]
  · simp [hpair, Encoder.current, hplace]

theorem State.bytesToFinish_waiting {w : Waiting} (hair : s.engine.onAir = none) (hw : s.encoder.waiting = some w) :
    s.bytesToFinish = w.lead := by
  simp [State.bytesToFinish, hair, hw]

theorem State.bytesToFinish_nothing (hair : s.engine.onAir = none) (hw : s.encoder.waiting = none) :
    s.bytesToFinish = s.txdByte.toList := by
  simp [State.bytesToFinish, hair, hw]

/-- Between the frames of an open cycle the bytes to finish are the gap byte on the line (R124). -/
theorem State.bytesToFinish_gap (hair : s.engine.onAir = none) (hw : s.encoder.waiting = none) (hstate : s.link.state = .running)
    (hphase : s.engine.phase ≠ .between) : s.bytesToFinish = if s.encoder.gap = 0 then [] else [fillByte] := by
  have hdue : s.rowDue = true ↔ s.encoder.gap = 0 := by
    rw [State.rowDue_iff hair]
    exact ⟨fun ⟨_, hgap, _⟩ => hgap, fun hgap => ⟨hstate, hgap, .inl hphase⟩⟩
  rw [State.bytesToFinish_nothing hair hw, State.txdByte_of_nothing (by simp [hstate, LinkState.keyed]) hair hw]
  simp only [hdue]
  split
  · rfl
  · rfl

end BytesToFinish

end Sys2Proof.Machine

namespace Sys2Proof.Proofs

open Sys2Proof.Machine

/-- Settles O33: which point stands, and whether it is reached now. -/
theorem stopInRunningSetsTheEarlierPoint : Obligations.StopInRunningSetsTheEarlierPoint := by
  unfold Obligations.StopInRunningSetsTheEarlierPoint
  refine ⟨fun s p more hrstn hstate => ?_, fun s p more hrstn hstate hstop hphase => ?_⟩
  · rw [exec_stop hrstn]
    refine ⟨fun hstop => ?_, fun hstop hpoint hbusy => ?_, fun hstop hp hbusy => ?_⟩
    all_goals refine congrArg Host.Outcome.next ((State.takeStop_of_running (by exact hstate) _).trans ?_)
    · exact State.stopRunning_pending hstop
    · have hframe : s.link.stop.earlier (stopPointOf p) = .frame := by
        obtain rfl | ⟨rfl, hpending⟩ := hpoint
        · exact StopPoint.earlier_frame hstop
        · rw [hpending]
          rfl
      refine (State.stopRunning_frame ?_ ?_).trans (State.reachFrame_busy ?_)
      · exact hstop
      · exact hframe
      · exact State.nextEnding_isSome.mpr hbusy
    · subst hp
      have hcycle : s.link.stop.earlier .cycle = .cycle := by
        obtain h | h := hstop
        all_goals
          rw [h]
          rfl
      have hstop' : s.link.stop ≠ .immediate := by
        obtain h | h := hstop
        all_goals simp [h]
      have hbusy' : s.nextEnding.isSome = true ∨ s.cycleOpen = true := by
        rw [State.nextEnding_isSome, State.cycleOpen_eq_true]
        tauto
      refine (State.stopRunning_cycle ?_ ?_).trans (State.reachCycle_busy ?_)
      · exact hstop'
      · exact hcycle
      · exact hbusy'
  · have hclosed : s.cycleOpen = false := State.cycleOpen_eq_false.mpr hphase
    rw [exec_stop hrstn]
    refine ⟨fun hair hw => ?_, fun hframe hcycle => ?_⟩
    · refine congrArg Host.Outcome.next ((State.takeStop_of_running (by exact hstate) _).trans ?_)
      refine (State.stopRunning_idle ?_ (stopPointOf_ne_none p) ?_ ?_).trans ?_
      · exact hstop
      · exact hclosed
      · exact State.nextEnding_eq_none.mpr ⟨hair, hw⟩
      · rw [State.enterHalted, ← hair]
        rfl
    · have himmediate : s.link.stop.earlier (stopPointOf p) = .immediate := by
        rw [stopPointOf_immediate hframe hcycle, StopPoint.earlier_immediate]
      have hreached {u : State} (hu : ({ s with port := s.transacted (1 + more.length) }.withStop .immediate).reachImmediate = u) :
          Host.Outcome.next ({ s with port := s.transacted (1 + more.length) }.takeStop (stopPointOf p)) =
            (.next u : Host.Outcome State Fault Refusal) := by
        refine congrArg Host.Outcome.next ((State.takeStop_of_running (by exact hstate) _).trans ?_)
        refine (State.stopRunning_immediate ?_ ?_).trans hu
        · exact hstop
        · exact himmediate
      have hfinish (hbusy : s.nextEnding.isSome = true) :
          ({ s with port := s.transacted (1 + more.length) }.withStop .immediate).bytesToFinish = s.bytesToFinish :=
        s.bytesToFinish_stop .immediate (.inl hbusy)
      refine ⟨fun f hnext hlead => hreached ?_, fun f hnext hlead => hreached ?_, fun hair => hreached ?_⟩
      · refine (State.reachImmediate_cycleEnd (f := f) ?_ ?_).trans ?_
        · exact hclosed
        · exact hnext
        · rw [hfinish (by simp [hnext]), State.beginFrameAfter_eq, if_neg hlead, if_neg hlead]
          rfl
      · refine (State.reachImmediate_cycleEnd (f := f) ?_ ?_).trans ?_
        · exact hclosed
        · exact hnext
        · rw [hfinish (by simp [hnext]), State.beginFrameAfter_eq, if_pos hlead, if_pos hlead]
          rfl
      · refine State.reachImmediate_abort ?_ ?_
        · exact hclosed
        · exact State.nextEnding_eq_some.mpr (.inl hair)

/-- Settles O34. -/
theorem stopPointsEndTheCycleEarly : Obligations.StopPointsEndTheCycleEarly := by
  unfold Obligations.StopPointsEndTheCycleEarly
  refine ⟨fun s => ⟨fun f hair hpair => State.bytesToFinish_pair hair hpair,
      fun f hair hpair hkeyed => State.bytesToFinish_onAir hair hpair hkeyed, fun w hair hw => State.bytesToFinish_waiting hair hw,
      fun hair hw => State.bytesToFinish_nothing hair hw, fun hair hw hstate hphase => State.bytesToFinish_gap hair hw hstate hphase⟩,
    fun s p more hrstn hstate hstop hphase hframe hcycle => ?_, fun s hstate hphase hair => ?_⟩
  · have hopen : s.cycleOpen = true := State.cycleOpen_eq_true.mpr hphase
    rw [exec_stop hrstn, stopPointOf_immediate hframe hcycle]
    refine congrArg Host.Outcome.next ((State.takeStop_of_running (by exact hstate) _).trans ?_)
    refine ((State.stopRunning_immediate ?_ ?_).trans (State.reachImmediate_open ?_)).trans ?_
    · exact hstop
    · exact StopPoint.earlier_immediate _
    · exact hopen
    · have hfinish : ({ s with port := s.transacted (1 + more.length) }.withStop .immediate).bytesToFinish = s.bytesToFinish :=
        s.bytesToFinish_stop .immediate (.inr hopen)
      rw [hfinish, State.earlyEnd_beginFrameAfter]
      rfl
  · have hopen : s.cycleOpen = true := State.cycleOpen_eq_true.mpr hphase
    refine ⟨fun more hrstn hstop hw => ?_, fun hstop => ?_⟩
    · rw [exec_stop hrstn]
      refine congrArg Host.Outcome.next ((State.takeStop_of_running (by exact hstate) _).trans ?_)
      refine ((State.stopRunning_frame ?_ ?_).trans (State.reachFrame_open ?_ ?_)).trans ?_
      · exact hstop
      · exact StopPoint.earlier_frame hstop
      · exact State.nextEnding_eq_none.mpr ⟨hair, hw⟩
      · exact hopen
      · have hfinish : ({ s with port := s.transacted (1 + more.length) }.withStop .frame).bytesToFinish =
            if s.encoder.gap = 0 then [] else [fillByte] :=
          (s.bytesToFinish_stop .frame (.inr hopen)).trans (State.bytesToFinish_gap hair hw hstate hphase)
        rw [hfinish, State.truncatedEnd, State.earlyEnd_beginFrameAfter]
        by_cases hgap : s.encoder.gap = 0
        · simp only [if_pos hgap]
          rfl
        · simp only [if_neg hgap]
          rfl
    · have hallowed : s.choiceAllowed = true := s.choiceAllowed_iff.mpr ⟨hopen, hstate, hair⟩
      simp only [exec, execFrameChoice, if_pos hallowed, if_pos hstop]
      rw [State.truncatedEnd, State.earlyEnd_beginFrameAfter]
      rfl

end Sys2Proof.Proofs

/-! The link's timers, CLR and CYC (R108, R110 to R113, R118, R121, R129). -/

namespace Sys2Proof.Machine

variable {s : State}

/-! ## Instants inside a byte -/

/-- A cycle start that becomes due inside a fill byte waits for its end (R112, R113). -/
theorem State.finishFillAt_eq (s : State) (p : BytePoint) : s.finishFillAt p = { s with
    encoder := if p = .boundary then s.encoder else { s.encoder with gap := max s.encoder.gap 1 } } := by
  cases p <;> rfl

theorem State.expiryPoint_eq_boundary (s : State) (ms : Nat) :
    s.expiryPoint ms = .boundary ↔ ms * (1200 * 2 ^ s.params.rate) % 8000 = 0 := by
  unfold State.expiryPoint bitRate
  split <;> simp [*]

theorem State.clrPoint_eq_boundary (s : State) : s.clrPoint = .boundary ↔ Config.clrOnByteBoundary s.freeCount = true := by
  unfold State.clrPoint
  split <;> simp [*]

theorem State.idle_iff (s : State) : (s.nextEnding.isNone && !s.cycleOpen) = true ↔
    s.engine.onAir = none ∧ s.encoder.waiting = none ∧ s.engine.phase = .between := by
  rw [Bool.and_eq_true, Option.isNone_iff_eq_none, State.nextEnding_eq_none, Bool.not_eq_true', State.cycleOpen_eq_false, and_assoc]

/-- The pacing timer's expiry, between cycles and elsewhere (R113). -/
theorem State.expirePacing_eq (s : State) (ms : Nat) : s.expirePacing ms = { s with
    link := { s.link with pacing := .expired }
    encoder := if s.engine.onAir = none ∧ s.encoder.waiting = none ∧ s.engine.phase = .between ∧
        ms * (1200 * 2 ^ s.params.rate) % 8000 ≠ 0 then { s.encoder with gap := max s.encoder.gap 1 } else s.encoder } := by
  unfold State.expirePacing
  dsimp only
  simp only [s.idle_iff, State.finishFillAt_eq, State.expiryPoint_eq_boundary]
  by_cases hidle : s.engine.onAir = none ∧ s.encoder.waiting = none ∧ s.engine.phase = .between
  · obtain ⟨hair, hw, hphase⟩ := hidle
    by_cases hpoint : ms * (1200 * 2 ^ s.params.rate) % 8000 = 0
    · simp [hair, hw, hphase, hpoint]
    · simp [hair, hw, hphase, hpoint]
  · rw [if_neg hidle, if_neg fun ⟨hair, hw, hphase, _⟩ => hidle ⟨hair, hw, hphase⟩]

/-- Outside CLEAR_WAIT only the level of the pin changes (R118). -/
theorem exec_clrAsserted_elsewhere (h : s.link.state ≠ .clearWait) :
    exec .clrAsserted s = .next { s with link := { s.link with clr := true } } := by
  unfold exec execClrAsserted
  dsimp only
  cases hcase : s.link.state with
  | clearWait => exact absurd hcase h
  | _ => rfl

/-! ## CYC's fall with the marker (R129) -/

theorem AirFrame.one_lt_byteLength (f : AirFrame) : 1 < f.byteLength := by
  cases f with
  | abort => exact Nat.one_lt_two
  | _ =>
    simp only [AirFrame.byteLength]
    omega

theorem Encoder.current_marker {m : Memory} {f : AirFrame} {e : Encoder} (hplace : e.place = 0) : e.current m f = some marker := by
  rw [Encoder.current, hplace, if_pos f.byteLength_pos]
  rfl

theorem Encoder.advance_marker {m : Memory} {f : AirFrame} {e : Encoder} (hplace : e.place = 0) (hpair : e.pairFirst = false) :
    e.advance m f = { e with place := 1 } := by
  have hmore : e.place + 1 < f.byteLength := by
    rw [hplace]
    exact f.one_lt_byteLength
  unfold Encoder.advance
  rw [if_neg (by simp [hpair]), if_pos hmore]
  simp [hplace, ← hpair]

/-- Where CYC is high a byte passes, in RUNNING (R108). -/
theorem exec_cycPulseEnd_running (hcyc : s.link.cyc = true) (hstate : s.link.state = .running) :
    exec .cycPulseEnd s = .next s.passByte.cycFalls.cycFalls := by
  have hkeyed : s.link.state.keyed = true := by simp [hstate, LinkState.keyed]
  simp only [exec, execCycPulseEnd, if_pos hcyc, byteTime_of_keyed hkeyed]

/-! ## Loss of CLR (R118) -/

theorem exec_clrFalls {i : Instr} (hi : i ∈ [Instr.lossOfClr, Instr.clrDeassertion]) : exec i s = .next s.clrFalls := by
  fin_cases hi
  all_goals rfl

theorem State.clrFalls_of_running (h : s.link.state = .running) :
    s.clrFalls = { s with link := { s.link with clr := false } }.cutLine.enterFault .linkLost :=
  if_pos h

theorem State.clrFalls_of_other (h : s.link.state ≠ .running) : s.clrFalls = { s with link := { s.link with clr := false } } :=
  if_neg h

theorem State.cutLine_open (h : s.cycleOpen = true) : s.cutLine = s.earlyEnd :=
  if_pos h

/-- Between cycles only a cut Cycle End leaves a mark (R91, R92). -/
theorem State.cutLine_cycleEnd (h : s.cycleOpen = false) {f : CycleEndFrame} (hair : s.engine.onAir = some (.cycleEnd f)) :
    s.cutLine = { s with engine := { s.engine with truncPrev := true } } := by
  rw [State.cutLine, if_neg (by simp [h]), hair]

theorem State.cutLine_other (h : s.cycleOpen = false) (hair : ∀ f, s.engine.onAir ≠ some (.cycleEnd f)) : s.cutLine = s := by
  rw [State.cutLine, if_neg (by simp [h])]
  split
  · rename_i f hf
    exact absurd hf (hair f)
  · rfl

theorem State.cutLine_pool (h : s.cycleOpen = false) : s.cutLine.pool = s.pool := by
  by_cases hair : ∃ f, s.engine.onAir = some (.cycleEnd f)
  · obtain ⟨f, hair⟩ := hair
    rw [State.cutLine_cycleEnd h hair]
  · rw [State.cutLine_other h (not_exists.mp hair)]

end Sys2Proof.Machine

namespace Sys2Proof.Proofs

open Sys2Proof.Machine

/-- Settles O35. -/
theorem timersAndClrMoveTheLink : Obligations.TimersAndClrMoveTheLink := by
  unfold Obligations.TimersAndClrMoveTheLink
  refine ⟨fun s => ⟨fun ms hms hclr => ?_, fun ms hms hclr => ?_, fun hstate => ?_, fun hstate => ?_, fun ms hms => ?_⟩,
    fun s => ⟨fun ms hms => ?_, fun hstopped => ?_, fun hcyc => ?_, fun hcyc => ?_, fun f hcyc hstate hair hplace hpair => ?_,
      fun b f hcyc hstate hair hw => ?_⟩⟩
  · simp only [exec, execKeyUpTimerExpiry, hms, State.expireKeyUp, if_pos hclr, State.enterRunning, State.finishFillAt_eq,
      State.expiryPoint_eq_boundary]
  · simp only [exec, execKeyUpTimerExpiry, hms, State.expireKeyUp, if_neg (show ¬s.link.clr = true by simp [hclr])]
  · simp only [exec, execClrAsserted, hstate, State.enterRunning, State.finishFillAt_eq, State.clrPoint_eq_boundary]
  · exact exec_clrAsserted_elsewhere hstate
  · simp only [exec, execClearWaitTimerExpiry, hms]
    rfl
  · simp only [exec, execPacingTimerExpiry, hms, State.expirePacing_eq]
  · simp only [exec, execPacingTimerExpiry, hstopped]
  · simp [exec, execCycPulseEnd, hcyc]
  · have hnext : exec .cycPulseEnd s = .next (byteTime s).cycFalls := if_pos hcyc
    exact ⟨_, hnext, execCycPulseEnd_next s hnext⟩
  · rw [exec_cycPulseEnd_running hcyc hstate, State.passByte_of_onAir hair, Encoder.current_marker hplace,
      Encoder.advance_marker hplace hpair]
    rfl
  · rw [exec_cycPulseEnd_running hcyc hstate, State.passByte_of_waiting hair hw]
    rfl

/-- Settles O36. -/
theorem lossOfClrCutsTheLine : Obligations.LossOfClrCutsTheLine := by
  unfold Obligations.LossOfClrCutsTheLine
  intro s i hi
  rw [exec_clrFalls hi]
  refine ⟨fun hstate => congrArg Host.Outcome.next (State.clrFalls_of_other hstate), fun hstate => ⟨_, rfl, ?_⟩⟩
  rw [State.clrFalls_of_running hstate]
  refine ⟨?_, ?_, rfl, rfl, rfl, ?_, ?_, ?_, ?_, ?_, fun hphase => ?_, fun hphase => ?_⟩
  · simp [State.enterFault]
  · simp [State.enterFault, Conditions.raiseLinkFault]
  · simp
  · simp
  · simp
  · simp
  · simp
  · have hopen : ({ s with link := { s.link with clr := false } } : State).cycleOpen = true := State.cycleOpen_eq_true.mpr hphase
    rw [State.cutLine_open hopen, State.earlyEnd_eq]
    exact ⟨rfl, rfl⟩
  · have hclosed : ({ s with link := { s.link with clr := false } } : State).cycleOpen = false := State.cycleOpen_eq_false.mpr hphase
    refine ⟨State.cutLine_pool hclosed, fun f hair => ?_, fun hair => ?_⟩
    · rw [State.cutLine_cycleEnd hclosed hair]
      rfl
    · rw [State.cutLine_other hclosed fun f hf => ?_]
      · rfl
      · obtain hair | hair := hair
        all_goals exact absurd (hf.symm.trans hair) nofun

end Sys2Proof.Proofs

/-! The cycle start, the class rounds and the candidates of a choice (R4, R71 to R76, R95, R133, R134). -/

namespace Sys2Proof.Machine

/-! ## The class rounds (R4) -/

theorem isDue_eq (cls : Nat) (k : Key) (n : Word16) : isDue cls k n = decide (n.toNat % 2 ^ cls = k.toNat % 2 ^ cls) := rfl

/-- The cycle of a round in which a record is due: the only one whose number and the key agree modulo 2^c (R4). -/
theorem exists_unique_due {cls : Nat} (hcls : cls ≤ 3) (k : Key) (n : Word16) :
    ∃ j, j < 2 ^ cls ∧ isDue cls k (n + BitVec.ofNat 16 j) = true ∧
      ∀ i, i < 2 ^ cls → isDue cls k (n + BitVec.ofNat 16 i) = true → i = j := by
  refine ⟨(k.toNat + 8 - n.toNat % 8) % 2 ^ cls, Nat.mod_lt _ (Nat.two_pow_pos cls), ?_⟩
  simp only [isDue_eq, decide_eq_true_eq, BitVec.toNat_add, BitVec.toNat_ofNat]
  interval_cases cls
  all_goals
    refine ⟨?_, fun i hi hdue => ?_⟩
    all_goals omega

/-! ## What a cycle start makes of each entry (R72, R95, R133, R134) -/

theorem Entry.atCycleStart_other {e : Entry} (h : ∀ v, e.body ≠ .live v) (limit : Nat) (cycle : Word16) :
    e.atCycleStart limit cycle = { e with sent := false } := by
  unfold Entry.atCycleStart
  cases hbody : e.body with
  | live v => exact absurd hbody (h v)
  | _ => rfl

/-- Without a pending confirmation only FEED_DUE can be added (R95). -/
theorem Entry.atCycleStart_unconfirmed {e : Entry} {v : Live} (hbody : e.body = .live v) (hconfirm : v.confirm = none) (limit : Nat)
    (cycle : Word16) : e.atCycleStart limit cycle = { e with
      sent := false
      flags := { e.flags with feedDue := e.flags.feedDue || (v.feed.isSome && isDue v.cls e.key cycle) } } := by
  simp only [Entry.atCycleStart, hbody, Flags.atCycleStart, hconfirm, Option.any_none, Bool.or_false, Option.map_none]
  rw [← hconfirm, ← hbody]

/-- A pending confirmation ages, and at the limit raises OVERDUE once (R133, R134). -/
theorem Entry.atCycleStart_confirmed {e : Entry} {v : Live} {c : Confirm} (hbody : e.body = .live v) (hconfirm : v.confirm = some c)
    (limit : Nat) (cycle : Word16) : e.atCycleStart limit cycle = { e with
      sent := false
      flags := { e.flags with
        overdue := e.flags.overdue || (!c.overdueRaised && decide (limit ≤ min (c.age + 1) 15))
        feedDue := e.flags.feedDue || (v.feed.isSome && isDue v.cls e.key cycle) }
      body := .live { v with confirm := some {
        age := min (c.age + 1) 15, overdueRaised := c.overdueRaised || decide (limit ≤ min (c.age + 1) 15) } } } := by
  simp only [Entry.atCycleStart, hbody, Flags.atCycleStart, hconfirm, Option.any_some, Option.map_some, Confirm.goesOverdue,
    Confirm.aged]

theorem Conditions.raiseCycleStart_eq (c : Conditions) (enable : Bool) :
    c.raiseCycleStart enable = { c with cycleStart := c.cycleStart || enable } := by
  cases enable <;> simp [Conditions.raiseCycleStart]

theorem exec_cycleStart_allowed {s : State} (h : s.cycleAllowed = true) : exec .cycleStart s = .next s.sendGap.startCycle :=
  if_pos h

/-! ## Candidates (R75, R76) -/

theorem Body.onCarousel_iff (b : Body) : b.onCarousel = true ↔ (∃ v, b = .live v) ∨ ∃ l r o, b = .withdrawing l r o := by
  cases b <;> simp [Body.onCarousel]

theorem Entry.due_iff (e : Entry) (cycle : Word16) : e.due cycle = true ↔
    (∃ v, e.body = .live v ∧ cycle.toNat % 2 ^ v.cls = e.key.toNat % 2 ^ v.cls) ∨ ∃ l r o, e.body = .withdrawing l r o := by
  unfold Entry.due
  cases e.body <;> simp [isDue_eq]

theorem Engine.walkFrom_eq_some (en : Engine) (k : Key) : en.walkFrom = some k ↔ en.phase = .walk ∧ en.cursor = some k := by
  simp [Engine.walkFrom]

theorem State.mem_walkCandidates_iff (s : State) (e : Entry) : e ∈ s.walkCandidates ↔
    e ∈ s.dir ∧ e.sent = false ∧ e.key ∉ s.engine.served ∧
      (∀ k, s.engine.phase = .walk → s.engine.cursor = some k → k < e.key) ∧
      ((∃ v, e.body = .live v ∧ s.engine.cycle.toNat % 2 ^ v.cls = e.key.toNat % 2 ^ v.cls) ∨
        ∃ l r o, e.body = .withdrawing l r o) := by
  rw [State.walkCandidates, List.mem_filter, Engine.walkCandidate, ← Entry.due_iff]
  simp only [Bool.and_eq_true, Bool.not_eq_true', List.contains_eq_mem, decide_eq_false_iff_not, aboveCursor_iff,
    Engine.walkFrom_eq_some, and_imp]
  tauto

theorem Directory.servable_eq_false {d : Directory} {k : Key}
    (h : ∀ x ∈ d, x.key = k → x.body.onCarousel = false ∨ x.sent = true) : d.servable k = false := by
  unfold Directory.servable
  cases he : d.entryOf k with
  | none => rfl
  | some e =>
    obtain hbody | hsent := h e (Directory.entryOf_mem he) (Directory.entryOf_key he)
    · simp [Entry.servable, hbody]
    · simp [Entry.servable, hsent]

theorem Directory.servable_of_mem {d : Directory} (hs : d.sorted) {e : Entry} (he : e ∈ d) (hbody : e.body.onCarousel = true)
    (hsent : e.sent = false) : d.servable e.key = true := by
  simp [Directory.servable, Directory.entryOf_of_mem hs he, Entry.servable, hbody, hsent]

section Settle

variable {s : State}

/-- The queued keys that come up for nothing are dropped (R75). -/
theorem State.settleQueue_drops {dropped rest : List Key} {k : Key} (hphase : s.engine.phase = .carry)
    (hqueue : s.engine.queue = dropped ++ k :: rest) (hdropped : ∀ x ∈ dropped, s.dir.servable x = false)
    (hk : s.dir.servable k = true) : s.settleQueue = { s with engine := { s.engine with queue := k :: rest } } := by
  have hdrop : s.engine.queue.dropWhile (fun k => !s.dir.servable k) = k :: rest := by
    rw [hqueue, List.dropWhile_append_of_pos fun x hx => by simp [hdropped x hx], List.dropWhile_cons_of_neg (by simp [hk])]
  rw [State.settleQueue, if_pos hphase, hdrop]

/-- With no queued key left the walk begins (R75). -/
theorem State.settleQueue_walks (hphase : s.engine.phase = .carry) (hnone : ∀ k ∈ s.engine.queue, s.dir.servable k = false) :
    s.settleQueue = { s with engine := { s.engine with queue := [], phase := .walk, cursor := none } } := by
  have hdrop : s.engine.queue.dropWhile (fun k => !s.dir.servable k) = [] := by
    rw [List.dropWhile_eq_nil_iff]
    exact fun k hk => by simp [hnone k hk]
  rw [State.settleQueue, if_pos hphase, hdrop]

theorem State.settleQueue_of_ne (hphase : s.engine.phase ≠ .carry) : s.settleQueue = s :=
  if_neg hphase

theorem State.candidate_carry {e : Entry} {rest : List Key} (hphase : s.engine.phase = .carry)
    (hqueue : s.engine.queue = e.key :: rest) (he : s.dir.entryOf e.key = some e) : s.candidate = some (.carry, e) := by
  simp [State.candidate, hphase, hqueue, he]

theorem State.candidate_walk (hphase : s.engine.phase = .walk) :
    s.candidate = s.walkCandidates.head?.map (fun e => (.walk, e)) := by
  simp [State.candidate, hphase]

/-- The WALK candidate of the smallest key (R76). -/
theorem State.walkCandidates_head (hs : s.dir.sorted) (e : Entry) :
    s.walkCandidates.head? = some e ↔ e ∈ s.walkCandidates ∧ ∀ x ∈ s.walkCandidates, e.key ≤ x.key := by
  simp only [State.walkCandidates, List.head?_filter, Directory.find?_eq_some_iff hs, List.mem_filter, and_assoc, and_imp]

end Settle

end Sys2Proof.Machine

namespace Sys2Proof.Proofs

open Sys2Proof.Machine

/-- Settles O37. -/
theorem cycleStartOpensTheCycle : Obligations.CycleStartOpensTheCycle := by
  unfold Obligations.CycleStartOpensTheCycle
  refine ⟨fun s hphase hstate hair hstop hdue => ⟨s.dir.map (Entry.atCycleStart s.params.confirmLimit (s.engine.cycle + 1#16)), ?_⟩,
    Entry.isLive_iff, fun s => s.cycleAllowed_iff, fun s hallowed => ?_⟩
  · rw [exec_cycleStart_allowed (s.cycleAllowed_iff.mpr ⟨hphase, hstate, hair, hstop, hdue⟩), State.startCycle,
      Conditions.raiseCycleStart_eq, State.cycleStartFrame, State.liveCount_eq]
    rfl
  · refine ⟨_, exec_cycleStart_allowed hallowed, ?_, fun i e he => ?_⟩
    · simp
    · have hentry : s.sendGap.startCycle.dir[i]? = some (e.atCycleStart s.params.confirmLimit (s.engine.cycle + 1#16)) := by
        simp [he]
      rw [hentry]
      refine ⟨fun hbody => ?_, fun v hbody => ⟨fun hconfirm => ?_, fun c hconfirm => ?_⟩⟩
      · rw [Entry.atCycleStart_other hbody]
      · rw [Entry.atCycleStart_unconfirmed hbody hconfirm, isDue_eq]
      · rw [Entry.atCycleStart_confirmed hbody hconfirm, isDue_eq]

/-- Settles O38. -/
theorem dueOnceInEveryRound : Obligations.DueOnceInEveryRound := by
  unfold Obligations.DueOnceInEveryRound
  exact ⟨fun cls k n => by rw [isDue_eq, decide_eq_true_eq], fun cls k n hcls => exists_unique_due hcls k n⟩

/-- Settles O39. -/
theorem choiceFindsItsCandidate : Obligations.ChoiceFindsItsCandidate := by
  unfold Obligations.ChoiceFindsItsCandidate
  refine ⟨Body.onCarousel_iff, State.mem_walkCandidates_iff, fun s hdir => ?_⟩
  have hs : s.dir.sorted := hdir.1
  refine ⟨fun dropped rest e hphase hqueue hdropped he hbody hsent => ?_, fun hphase hnone => ?_, fun hphase => ⟨?_, ?_, fun e => ?_⟩⟩
  · have hsettled := State.settleQueue_drops hphase hqueue (fun x hx => Directory.servable_eq_false (hdropped x hx))
      (Directory.servable_of_mem hs he hbody hsent)
    rw [hsettled]
    exact ⟨rfl, State.candidate_carry hphase rfl (Directory.entryOf_of_mem hs he)⟩
  · exact State.settleQueue_walks hphase fun k hk => Directory.servable_eq_false (hnone k hk)
  · exact State.settleQueue_of_ne (by simp [hphase])
  · simp [State.candidate_walk hphase]
  · rw [State.candidate_walk hphase, ← State.walkCandidates_head hs]
    simp

end Sys2Proof.Proofs

/-! FRAME_CHOICE: the frame it starts or the cycle it closes (R74, R77 to R80, R83, R84, R86, R87, R99, R100). -/

namespace Sys2Proof.Machine

/-! ## What a frame start makes of the entry (R80, R99, R100) -/

section FrameStart

variable {e : Entry} {v : Live} {f : Feed}

/-- A record with nothing to feed is left as it is. -/
theorem Entry.atFrameStart_stored (h : ∀ v, e.body = .live v → v.feed = none) : e.atFrameStart = e := by
  unfold Entry.atFrameStart
  cases hbody : e.body with
  | live v =>
    have hfeed := h v hbody
    simp [Flags.atFrameStart, Live.swaps, Live.atFrameStart, hfeed, ← hbody]
  | _ => rfl

/-- A FEED record whose back chain is not fresh is stale (R100). -/
theorem Entry.atFrameStart_stale (hbody : e.body = .live v) (hfeed : v.feed = some f) (hfresh : f.fresh = false) :
    e.atFrameStart = { e with flags := { e.flags with feedStale := true } } := by
  simp [Entry.atFrameStart, hbody, Flags.atFrameStart, Flags.addFeedStale, Live.swaps, Live.atFrameStart, hfeed, hfresh]

/-- A fresh back chain is swapped in, and a pending confirmation ends with SUPERSEDED (R99). -/
theorem Entry.atFrameStart_fresh (hbody : e.body = .live v) (hfeed : v.feed = some f) (hfresh : f.fresh = true) :
    e.atFrameStart = { e with
      flags := { e.flags with superseded := e.flags.superseded || v.confirm.isSome }
      body := .live { v with
        version := v.version + 1#8, front := f.back, feed := some { back := v.front, fill := 0, fresh := false }, confirm := none } } := by
  simp [Entry.atFrameStart, hbody, Flags.atFrameStart, Flags.supersede_eq, Live.swaps, Live.atFrameStart, hfeed, hfresh]

theorem Live.atFrameStart_cls (v : Live) : v.atFrameStart.cls = v.cls := by
  unfold Live.atFrameStart
  repeat' split
  all_goals rfl

theorem Live.atFrameStart_length (v : Live) : v.atFrameStart.length = v.length := by
  unfold Live.atFrameStart
  repeat' split
  all_goals rfl

theorem Live.atFrameStart_feed_isSome (v : Live) : v.atFrameStart.feed.isSome = v.feed.isSome := by
  unfold Live.atFrameStart
  split
  · rename_i f hfeed
    split
    · rw [hfeed]
      rfl
    · rfl
  · rfl

theorem Live.stale_eq (v : Live) : (v.feed.isSome && !v.swaps) = v.feed.any (fun f => !f.fresh) := by
  unfold Live.swaps
  cases v.feed <;> simp

theorem Entry.atFrameStart_live (hbody : e.body = .live v) : e.atFrameStart.body = .live v.atFrameStart := by
  simp [Entry.atFrameStart, hbody]

/-- The frame fixed for a LIVE entry (R80). -/
theorem Entry.frame_live (hbody : e.body = .live v) (source : Source) : e.frame source = some (.record {
    key := e.key, source := source, version := v.atFrameStart.version, cls := v.cls, length := v.length
    chain := v.atFrameStart.front, kind := if v.feed.isSome then .feed else .stored, stale := v.feed.any (fun x => !x.fresh) }) := by
  simp only [Entry.frame, hbody, Live.kind, Live.atFrameStart_cls, Live.atFrameStart_length, Live.atFrameStart_feed_isSome,
    Live.stale_eq]

/-- The frame fixed for a WITHDRAWING entry (R80). -/
theorem Entry.frame_withdrawing {l : Last} {r : Nat} {o : Option SlotNo} (hbody : e.body = .withdrawing l r o) (source : Source) :
    e.frame source = some (.withdrawal { key := e.key, source := source, version := l.version, after := r - 1 }) := by
  simp only [Entry.frame, hbody]

end FrameStart

/-! ## The choice on the settled queue (R74, R75) -/

section Choice

variable {s : State} {source : Source} {e : Entry}

theorem State.sendGap_settleQueue (s : State) : s.sendGap.settleQueue = s.settleQueue.sendGap := by
  obtain ⟨hne, hsame⟩ | ⟨hphase, hsame, hnone⟩ | ⟨dropped, k, rest, hphase, hqueue, hdropped, hk, hsame⟩ := s.settleQueue_cases
  · rw [hsame, State.settleQueue_of_ne (s := s.sendGap) hne]
  · rw [hsame, State.settleQueue_walks (s := s.sendGap) hphase hnone]
    rfl
  · rw [hsame, State.settleQueue_drops (s := s.sendGap) hphase hqueue hdropped hk]
    rfl

/-- Settling touches the queue, the phase and the cursor alone (R75). -/
theorem State.settleQueue_engine (s : State) : s.settleQueue.engine = { s.engine with
    queue := s.settleQueue.engine.queue, phase := s.settleQueue.engine.phase, cursor := s.settleQueue.engine.cursor } := by
  obtain ⟨-, hsame⟩ | ⟨-, hsame, -⟩ | ⟨_, _, _, -, -, -, -, hsame⟩ := s.settleQueue_cases <;> rw [hsame]

theorem State.settleQueue_eq (s : State) : s.settleQueue = { s with engine := s.settleQueue.engine } := by
  obtain ⟨-, hsame⟩ | ⟨-, hsame, -⟩ | ⟨_, _, _, -, -, -, -, hsame⟩ := s.settleQueue_cases <;> rw [hsame]

theorem exec_frameChoice_chooses (hphase : s.engine.phase ≠ .between) (hstate : s.link.state = .running) (hair : s.engine.onAir = none)
    (hstop : s.link.stop ≠ .frame) : exec .frameChoice s = .next s.settleQueue.sendGap.choose := by
  have hallowed : s.choiceAllowed = true := s.choiceAllowed_iff.mpr ⟨State.cycleOpen_eq_true.mpr hphase, hstate, hair⟩
  simp only [exec, execFrameChoice, if_pos hallowed, if_neg hstop, State.sendGap_settleQueue]

theorem State.choose_of_fits (h : s.candidate = some (source, e)) (hfits : s.engine.fits e.body.cost = true) :
    s.choose = s.startFrame source e := by
  simp only [State.choose, h, if_pos hfits]

theorem State.choose_of_overflow (h : s.candidate = some (source, e)) (hfits : ¬s.engine.fits e.body.cost = true) :
    s.choose = s.overflowClose := by
  simp only [State.choose, h, if_neg hfits]

theorem State.choose_of_none (h : s.candidate = none) : s.choose = s.closeCycle := by
  simp only [State.choose, h]

/-- The candidate of a settled choice is an unsent entry of the carousel, in WALK off the carry-served list (R75 to R77). -/
theorem State.settled_candidate (h : s.settleQueue.candidate = some (source, e)) :
    e ∈ s.dir ∧ e.body.onCarousel = true ∧ e.sent = false ∧
      (s.settleQueue.engine.phase = .walk → e.key ∉ s.engine.served) := by
  obtain ⟨hphase, -, rest, hqueue, he⟩ | ⟨hphase, -, rest, hwalk⟩ := State.candidate_cases h
  · rw [State.settleQueue_dir] at he
    have hservable : s.dir.servable e.key = true := by
      obtain ⟨hne, hsame⟩ | ⟨-, hsame, -⟩ | ⟨dropped, k, rest', -, -, -, hk, hsame⟩ := s.settleQueue_cases
      · exact absurd (hsame ▸ hphase) hne
      · simp [hsame] at hphase
      · rw [hsame] at hqueue
        rwa [← (List.cons.inj hqueue).1]
    simp only [Directory.servable, he, Option.any_some, Entry.servable, Bool.and_eq_true, Bool.not_eq_true'] at hservable
    exact ⟨Directory.entryOf_mem he, hservable.1, hservable.2, fun hw => by simp [hphase] at hw⟩
  · obtain ⟨hmem, hdue, hsent, hserved, -⟩ := State.mem_walkCandidates (hwalk ▸ List.mem_cons_self : e ∈ s.settleQueue.walkCandidates)
    rw [State.settleQueue_dir] at hmem
    rw [State.settleQueue_engine] at hserved
    exact ⟨hmem, Entry.due_onCarousel hdue, hsent, fun _ => hserved⟩

theorem Engine.fits_iff (en : Engine) (cost : Nat) : en.fits cost = true ↔ en.firstSent = false ∨ cost ≤ en.budget := by
  simp [Engine.fits]

/-- The engine at a frame start (R80). -/
theorem Engine.charged_eq (en : Engine) (source : Source) (key : Key) (cost : Nat) : en.charged source key cost = { en with
    budget := en.budget - cost, firstSent := true
    queue := if source = .carry then en.queue.tail else en.queue
    cursor := if source = .walk then some key else en.cursor } := by
  cases source <;> rfl

theorem State.startFrame_eq {f : AirFrame} (hf : e.frame source = some f) : s.startFrame source e = { s with
    dir := s.dir.update e.key Entry.atFrameStart
    engine := { s.engine with
      budget := s.engine.budget - e.body.cost, firstSent := true, onAir := some f
      queue := if source = .carry then s.engine.queue.tail else s.engine.queue
      cursor := if source = .walk then some e.key else s.engine.cursor }
    encoder := Encoder.idle } := by
  simp only [State.startFrame, hf, Engine.charged_eq]
  rfl

/-- FRAME_CHOICE with a candidate that fits starts its frame, behind the gap bytes (R74, R80). -/
theorem exec_frameChoice_starts (hphase : s.engine.phase ≠ .between) (hstate : s.link.state = .running) (hair : s.engine.onAir = none)
    (hstop : s.link.stop ≠ .frame) (hcand : s.settleQueue.candidate = some (source, e))
    (hfits : s.settleQueue.engine.fits e.body.cost = true) {f : AirFrame} (hf : e.frame source = some f) :
    exec .frameChoice s = .next { s with
      dir := s.dir.update e.key Entry.atFrameStart
      engine := { s.settleQueue.engine with
        budget := s.settleQueue.engine.budget - e.body.cost, firstSent := true, onAir := some f
        queue := if source = .carry then s.settleQueue.engine.queue.tail else s.settleQueue.engine.queue
        cursor := if source = .walk then some e.key else s.settleQueue.engine.cursor }
      encoder := Encoder.idle
      line := List.replicate s.encoder.gap fillByte } := by
  have hcand' : s.settleQueue.sendGap.candidate = some (source, e) := hcand
  have hfits' : s.settleQueue.sendGap.engine.fits e.body.cost = true := hfits
  rw [exec_frameChoice_chooses hphase hstate hair hstop, State.choose_of_fits hcand' hfits', State.startFrame_eq hf, State.sendGap]
  rw [State.settleQueue_eq]

/-! ## Closing the cycle (R83, R84, R86, R87) -/

theorem State.bareNow_iff (s : State) : s.bareNow = true ↔
    s.engine.firstSent = false ∧ s.engine.queue = [] ∧ ∀ e ∈ s.dir, e.body.onCarousel = false := by
  simp [State.bareNow, and_assoc]

/-- The queue of an overflow close, key by key (R84). -/
theorem State.queueWithOwed_eq (s : State) (queue : List Key) :
    s.queueWithOwed queue = queue ++ (s.walkCandidates.map Entry.key).filter (fun k => decide (k ∉ queue)) := by
  simp [State.queueWithOwed]

/-- A close starts the Cycle End frame; a bare cycle is counted (R83, R86, R87). -/
theorem State.closeCycle_eq (s : State) : s.closeCycle = { s with
    engine := { s.engine with
      phase := .between
      onAir := some (.cycleEnd { cycle := s.engine.cycle, frames := s.engine.frames, truncated := false })
      bare := if s.engine.firstSent = false ∧ s.engine.queue = [] ∧ (∀ e ∈ s.dir, e.body.onCarousel = false)
        then min (s.engine.bare + 1) 15 else 0 }
    encoder := Encoder.idle } := by
  simp only [State.closeCycle, ← State.bareNow_iff]
  rfl

/-- Once a frame has been sent the cycle is not bare (R87). -/
theorem State.overflowClose_eq {s : State} (hfirst : s.engine.firstSent = true) : s.overflowClose = { s with
    engine := { s.engine with
      phase := .between
      onAir := some (.cycleEnd { cycle := s.engine.cycle, frames := s.engine.frames, truncated := false })
      bare := 0
      queue := s.engine.queue ++ (s.walkCandidates.map Entry.key).filter (fun k => decide (k ∉ s.engine.queue)) }
    encoder := Encoder.idle } := by
  rw [State.overflowClose, State.closeCycle_eq, State.queueWithOwed_eq, if_neg (by simp [hfirst])]

end Choice

theorem AirFrame.key_eq_some (f : AirFrame) (k : Key) : f.key = some k ↔
    (∃ r, f = .record r ∧ r.key = k) ∨ ∃ w, f = .withdrawal w ∧ w.key = k := by
  cases f <;> simp [AirFrame.key]

/-- The phase at a choice is the settled one (R75). -/
theorem State.startFrame_phase (s : State) (source : Source) (e : Entry) : (s.startFrame source e).engine.phase = s.engine.phase := by
  unfold State.startFrame
  split
  · cases source <;> rfl
  · rfl

/-- The frame of a choice's frame start carries the candidate's key (R80). -/
theorem State.startFrame_key {s : State} (hair : s.engine.onAir = none) {source : Source} {e : Entry} {k : Key}
    (h : (s.startFrame source e).engine.onAir.bind AirFrame.key = some k) : k = e.key := by
  unfold State.startFrame at h
  split at h
  · rename_i f hf
    obtain ⟨-, hkey⟩ := Entry.frame_inCycle hf
    exact Option.some.inj (h.symm.trans hkey)
  · simp [hair] at h

end Sys2Proof.Machine

namespace Sys2Proof.Proofs

open Sys2Proof.Machine

/-- Settles O40. -/
theorem frameChoiceStartsTheFrame : Obligations.FrameChoiceStartsTheFrame := by
  unfold Obligations.FrameChoiceStartsTheFrame
  refine ⟨⟨fun v => rfl, fun l r o => rfl, Engine.fits_iff⟩, ?_, ?_⟩
  · intro s source e hdir hphase hstate hair hstop hcand en cost hfits
    obtain ⟨hmem, hbody, -, -⟩ := State.settled_candidate hcand
    have he := Directory.entryOf_of_mem hdir.1 hmem
    have hcost : e.body.cost = cost := by
      obtain ⟨v, hv⟩ | ⟨l, r, o, hw⟩ := (Body.onCarousel_iff _).mp hbody
      · simp only [cost, hv]
        rfl
      · simp only [cost, hw]
        rfl
    have hstarts {f : AirFrame} (hf : e.frame source = some f) :=
      exec_frameChoice_starts hphase hstate hair hstop hcand ((Engine.fits_iff _ _).mpr (hcost ▸ hfits)) hf
    rw [hcost] at hstarts
    obtain ⟨v, hv⟩ | ⟨l, r, o, hw⟩ := (Body.onCarousel_iff _).mp hbody
    · refine ⟨_, _, hstarts (Entry.frame_live hv source), fun l r o hw => absurd (hv.symm.trans hw) nofun, fun v' hv' => ?_⟩
      obtain rfl := Body.live.inj (hv.symm.trans hv')
      refine ⟨e.atFrameStart, v.atFrameStart, ?_, Entry.atFrameStart_live hv, rfl⟩
      rw [Directory.entryOf_update_same _ _ _ Entry.atFrameStart_key, he]
      rfl
    · refine ⟨_, _, hstarts (Entry.frame_withdrawing hw source), fun l' r' o' hw' => ?_, fun v hv => absurd (hw.symm.trans hv) nofun⟩
      obtain ⟨rfl, rfl, -⟩ := Body.withdrawing.inj (hw.symm.trans hw')
      rfl
  · intro s source e hdir hphase hstate hair hstop hcand hfits
    obtain ⟨hmem, hbody, -, -⟩ := State.settled_candidate hcand
    have hentry : (s.dir.update e.key Entry.atFrameStart).entryOf e.key = some e.atFrameStart := by
      rw [Directory.entryOf_update_same _ _ _ Entry.atFrameStart_key, Directory.entryOf_of_mem hdir.1 hmem]
      rfl
    have hframe : ∃ f, e.frame source = some f := by
      obtain ⟨v, hv⟩ | ⟨l, r, o, hw⟩ := (Body.onCarousel_iff _).mp hbody
      · exact ⟨_, Entry.frame_live hv source⟩
      · exact ⟨_, Entry.frame_withdrawing hw source⟩
    obtain ⟨f, hf⟩ := hframe
    refine ⟨_, exec_frameChoice_starts hphase hstate hair hstop hcand hfits hf, Directory.update_keys _ _ Entry.atFrameStart_key,
      fun k hk => Directory.entryOf_update_other _ _ Entry.atFrameStart_key hk, fun hstored => ?_, fun v f hv hfeed => ⟨?_, ?_⟩⟩
    · exact hentry.trans (congrArg some (Entry.atFrameStart_stored hstored))
    · exact fun hfresh => hentry.trans (congrArg some (Entry.atFrameStart_stale hv hfeed hfresh))
    · exact fun hfresh => hentry.trans (congrArg some (Entry.atFrameStart_fresh hv hfeed hfresh))

/-- Settles O41. -/
theorem frameChoiceClosesTheCycle : Obligations.FrameChoiceClosesTheCycle := by
  unfold Obligations.FrameChoiceClosesTheCycle
  intro s hphase hstate hair hstop u endFrame
  have hengine : u.engine = { s.engine with
      queue := u.engine.queue, phase := u.engine.phase, cursor := u.engine.cursor } := s.settleQueue_engine
  have hu : u = { s with engine := u.engine } := s.settleQueue_eq
  have hcycle : u.engine.cycle = s.engine.cycle := (congrArg Engine.cycle hengine).trans rfl
  have hframes : u.engine.frames = s.engine.frames := (congrArg Engine.frames hengine).trans rfl
  have hsent : u.engine.firstSent = s.engine.firstSent := (congrArg Engine.firstSent hengine).trans rfl
  have hbare : u.engine.bare = s.engine.bare := (congrArg Engine.bare hengine).trans rfl
  have hbudget : u.engine.budget = s.engine.budget := (congrArg Engine.budget hengine).trans rfl
  have hgap : u.sendGap = { s.sendGap with engine := u.engine } := by
    rw [hu]
    rfl
  rw [exec_frameChoice_chooses hphase hstate hair hstop]
  refine ⟨fun hnone => ?_, fun source e hcand hfirst hover => ?_⟩
  · rw [State.choose_of_none (s := u.sendGap) hnone, hgap, State.closeCycle_eq]
    simp only [hcycle, hframes, hsent, hbare]
    rfl
  · have hfits : ¬u.engine.fits e.body.cost = true := by
      rw [Engine.fits_iff, hsent, hbudget, hfirst]
      simp
      omega
    have hwalk : ({ s.sendGap with engine := u.engine } : State).walkCandidates = u.walkCandidates := by
      rw [← hgap]
      rfl
    rw [State.choose_of_overflow (s := u.sendGap) hcand hfits, hgap]
    refine congrArg Host.Outcome.next ((State.overflowClose_eq ?_).trans ?_)
    · exact hsent.trans hfirst
    · simp only [hcycle, hframes, hwalk]
      rfl

/-- Settles O42: only a frame start puts a key on air, and its candidate is unsent. -/
theorem noFrameForASentKey : Obligations.NoFrameForASentKey := by
  unfold Obligations.NoFrameForASentKey
  refine ⟨AirFrame.key_eq_some, fun s hair => ?_⟩
  by_cases hallowed : s.choiceAllowed = true
  · by_cases hstop : s.link.stop = .frame
    · refine ⟨s.sendGap.truncatedEnd [], by simp only [exec, execFrameChoice, if_pos hallowed, if_pos hstop], nofun⟩
    · refine ⟨s.sendGap.settleQueue.choose, by simp only [exec, execFrameChoice, if_pos hallowed, if_neg hstop], fun k hk => ?_⟩
      rw [State.sendGap_settleQueue] at hk ⊢
      obtain ⟨h, -⟩ | ⟨source, e, hcand, h, -⟩ | ⟨source, e, -, h, -⟩ := s.settleQueue.sendGap.choose_cases
      · rw [h] at hk
        exact absurd hk nofun
      · rw [h] at hk ⊢
        obtain rfl := State.startFrame_key (by simpa using hair) hk
        obtain ⟨hmem, hbody, hsent, hserved⟩ := State.settled_candidate hcand
        exact ⟨e, hmem, rfl, hsent, hbody, fun hw => hserved (by simpa [State.startFrame_phase] using hw)⟩
      · rw [h] at hk
        exact absurd hk nofun
  · refine ⟨s, by simp only [exec, execFrameChoice, if_neg hallowed], fun k hk => ?_⟩
    simp [hair] at hk

end Sys2Proof.Proofs

/-! The frame ends (R16, R29, R63, R77, R81, R82, R88, R89, R116, R117, R119, R124). -/

namespace Sys2Proof.Machine

variable {s : State}

/-! ## The rows of the frame ends -/

theorem exec_cycleStartFrameEnd {f : CycleStartFrame} (hair : s.engine.onAir = some (.cycleStart f)) :
    exec .cycleStartFrameEnd s = .next s.sendToFrameEnd.afterFrame := by
  simp only [exec, execCycleStartFrameEnd, hair]

theorem exec_recordFrameEnd {f : RecordFrame} (hair : s.engine.onAir = some (.record f)) :
    exec .recordFrameEnd s = .next (s.sendToFrameEnd.recordDone f).afterFrame := by
  simp only [exec, execRecordFrameEnd, hair]

theorem exec_withdrawalFrameEnd {f : WithdrawalFrame} (hair : s.engine.onAir = some (.withdrawal f)) :
    exec .withdrawalFrameEnd s = .next (s.sendToFrameEnd.withdrawalDone f).afterFrame := by
  simp only [exec, execWithdrawalFrameEnd, hair]

theorem exec_abortFrameEnd (hnext : s.nextEnding = some .abort) : exec .abortFrameEnd s = .next s.sendToFrameEnd.enterHalted := by
  simp only [exec, execAbortFrameEnd, hnext]

theorem exec_cycleEndFrameEnd {f : CycleEndFrame} (hnext : s.nextEnding = some (.cycleEnd f)) : exec .cycleEndFrameEnd s =
    if s.link.stop ≠ .none ∨ f.truncated = true then .next s.sendToFrameEnd.enterHalted
    else if s.goneBare then .next s.sendToFrameEnd.enterDormant
    else .next (s.sendToFrameEnd.endFrame s.params.gap) := by
  simp only [exec, execCycleEndFrameEnd, hnext]

/-- The carousel has gone bare (R87, R119). -/
theorem State.goneBare_iff (s : State) : s.goneBare = true ↔ s.params.bareLimit ≠ 0 ∧ s.engine.bare = s.params.bareLimit := by
  simp [State.goneBare]

/-! ## What follows a completed frame (R89, R124) -/

theorem State.afterFrame_gap (h : s.link.stop ≠ .frame) : s.afterFrame = s.endFrame s.params.gap :=
  if_neg h

/-- A FRAME point: the cycle ends early with no abandoned frame, the truncated Cycle End with no gap bytes before it (R88, R89). -/
theorem State.afterFrame_point (h : s.link.stop = .frame) (gap : Nat) : s.afterFrame = { s.endFrame gap with
    pool := s.pool.heldReleased
    engine := { s.engine with
      queue := (s.endFrame gap).earlyQueue, truncPrev := true, phase := .between
      onAir := some (.cycleEnd { cycle := s.engine.cycle, frames := s.engine.frames, truncated := true }) }
    encoder := Encoder.idle } := by
  rw [State.afterFrame, if_pos h, State.truncatedEnd, State.earlyEnd_beginFrameAfter]
  rfl

/-! ## Record frames (R77, R81, R82) -/

theorem servedWith_eq (served : List Key) (source : Source) (key : Key) :
    servedWith served source key = if source = .carry ∧ key ∉ served then served ++ [key] else served := by
  cases source with
  | walk => rfl
  | carry =>
    by_cases hmem : key ∈ served
    · simp [servedWith, hmem]
    · simp [servedWith, hmem]

/-- The confirmation whose version the frame carried completes (R82). -/
theorem Entry.recordSent_confirmed {e : Entry} {v : Live} {c : Confirm} (hbody : e.body = .live v) (hconfirm : v.confirm = some c)
    {version : Byte} (hversion : v.version = version) : e.recordSent version = { e with
      sent := true, flags := { e.flags with confirmed := true }, body := .live { v with confirm := none } } := by
  simp [Entry.recordSent, hbody, hconfirm, hversion, Flags.addConfirmed]

theorem Entry.recordSent_other {e : Entry} {version : Byte}
    (h : ∀ v c, e.body = .live v → v.confirm = some c → v.version ≠ version) : e.recordSent version = { e with sent := true } := by
  unfold Entry.recordSent
  cases hbody : e.body with
  | live v =>
    have hnot : ¬(v.confirm.isSome && version == v.version) = true := by
      rw [Bool.and_eq_true, Option.isSome_iff_exists, beq_iff_eq]
      rintro ⟨⟨c, hc⟩, hversion⟩
      exact h v c hbody hc hversion.symm
    exact if_neg hnot
  | _ => rfl

/-! ## Withdrawal frames (R16, R63) -/

section WithdrawalSent

variable {e : Entry} {l : Last}

theorem Entry.withdrawalSent_counts {r : Nat} {o : Option SlotNo} (hbody : e.body = .withdrawing l r o) (hr : 2 ≤ r) :
    e.withdrawalSent = { e with sent := true, body := .withdrawing l (r - 1) o } ∧ e.withdrawalEnds = false := by
  have hmore : ¬r ≤ 1 := by omega
  cases o <;> simp [Entry.withdrawalSent, Entry.withdrawalEnds, hbody, hmore]

/-- An open slot holds the last withdrawal (R16). -/
theorem Entry.withdrawalSent_held {n : SlotNo} (hbody : e.body = .withdrawing l 1 (some n)) :
    e.withdrawalSent = { e with sent := true } ∧ e.withdrawalEnds = false := by
  simp [Entry.withdrawalSent, Entry.withdrawalEnds, hbody]

theorem Entry.withdrawalSent_spent (hbody : e.body = .withdrawing l 1 none) :
    e.withdrawalSent = { e with sent := true, flags := { e.flags with withdrawn := true }, body := .spent l } ∧
      e.withdrawalEnds = true := by
  simp [Entry.withdrawalSent, Entry.withdrawalEnds, hbody, Flags.addWithdrawn]

theorem Entry.withdrawalSent_live {v : Live} (hbody : e.body = .live v) :
    e.withdrawalSent = { e with sent := true } ∧ e.withdrawalEnds = false := by
  simp [Entry.withdrawalSent, Entry.withdrawalEnds, hbody]

end WithdrawalSent

/-- The entry stays, unless its withdrawal ends with the spent-notice option off (R16). -/
theorem Directory.withdrawalSent_kept {d : Directory} {key : Key} {e : Entry} (he : d.entryOf key = some e) {spentNotice : Bool}
    (h : spentNotice = true ∨ e.withdrawalEnds = false) : (d.withdrawalSent key spentNotice).entryOf key = some e.withdrawalSent := by
  have hkept : ¬(!spentNotice && (d.entryOf key).any Entry.withdrawalEnds) = true := by
    rw [he]
    obtain h | h := h
    · simp [h]
    · simp [h]
  rw [Directory.withdrawalSent, if_neg hkept, Directory.entryOf_update_same _ _ _ Entry.withdrawalSent_key, he]
  rfl

theorem Directory.withdrawalSent_removed {d : Directory} {key : Key} {e : Entry} (he : d.entryOf key = some e) {spentNotice : Bool}
    (hnotice : spentNotice = false) (h : e.withdrawalEnds = true) : d.withdrawalSent key spentNotice = d.remove key := by
  rw [Directory.withdrawalSent, if_pos (by simp [hnotice, he, h])]

theorem Directory.withdrawalSent_other (d : Directory) {key k : Key} (spentNotice : Bool) (hk : k ≠ key) :
    (d.withdrawalSent key spentNotice).entryOf k = d.entryOf k := by
  unfold Directory.withdrawalSent
  split
  · exact d.entryOf_remove_other hk
  · exact d.entryOf_update_other _ Entry.withdrawalSent_key hk

end Sys2Proof.Machine

namespace Sys2Proof.Proofs

open Sys2Proof.Machine

/-- Settles O43. -/
theorem recordFrameEndCompletesTheFrame : Obligations.RecordFrameEndCompletesTheFrame := by
  unfold Obligations.RecordFrameEndCompletesTheFrame
  intro s f hair hstop
  refine ⟨s.dir.update f.key (Entry.recordSent f.version), ?_, Directory.update_keys _ _ (Entry.recordSent_key _),
    fun k hk => Directory.entryOf_update_other _ _ (Entry.recordSent_key _) hk, fun e he => ?_⟩
  · rw [exec_recordFrameEnd hair, State.afterFrame_gap (by simpa using hstop), ← servedWith_eq, ← Pool.releaseHold_eq]
    rfl
  · rw [Directory.entryOf_update_same _ _ _ (Entry.recordSent_key _), he]
    exact ⟨fun v c hbody hconfirm hversion => congrArg some (Entry.recordSent_confirmed hbody hconfirm hversion),
      fun hnone => congrArg some (Entry.recordSent_other hnone)⟩

/-- Settles O44. -/
theorem withdrawalFrameEndLowersTheCount : Obligations.WithdrawalFrameEndLowersTheCount := by
  unfold Obligations.WithdrawalFrameEndLowersTheCount
  intro s f hair hstop
  refine ⟨s.dir.withdrawalSent f.key s.params.spentNotice, ?_, fun k hk => s.dir.withdrawalSent_other _ hk, fun e he => ?_⟩
  · rw [exec_withdrawalFrameEnd hair, State.afterFrame_gap (by simpa using hstop), ← servedWith_eq, ← Pool.releaseHold_eq]
    rfl
  · refine ⟨fun l r o hbody hr => ?_, fun l n hbody => ?_, fun l hbody => ⟨fun hnotice => ?_, fun hnotice => ?_⟩, fun v hbody => ?_⟩
    · obtain ⟨hentry, hends⟩ := Entry.withdrawalSent_counts hbody hr
      rw [Directory.withdrawalSent_kept he (.inr hends), hentry]
    · obtain ⟨hentry, hends⟩ := Entry.withdrawalSent_held hbody
      rw [Directory.withdrawalSent_kept he (.inr hends), hentry]
    · obtain ⟨hentry, -⟩ := Entry.withdrawalSent_spent hbody
      rw [Directory.withdrawalSent_kept he (.inl hnotice), hentry]
    · obtain ⟨-, hends⟩ := Entry.withdrawalSent_spent hbody
      rw [Directory.withdrawalSent_removed he hnotice hends]
      exact ⟨Directory.entryOf_remove_same _ _, rfl⟩
    · obtain ⟨hentry, hends⟩ := Entry.withdrawalSent_live hbody
      rw [Directory.withdrawalSent_kept he (.inr hends), hentry]

/-- Settles O45: without the point the frame's gap bytes follow; with it the early end of the state that the frame leaves. -/
theorem framePointIsReachedAtTheFrameEnd : Obligations.FramePointIsReachedAtTheFrameEnd := by
  unfold Obligations.FramePointIsReachedAtTheFrameEnd
  rintro s i f hair hstop (⟨rfl, x, rfl⟩ | ⟨rfl, x, rfl⟩ | ⟨rfl, x, rfl⟩)
  · refine ⟨_, exec_cycleStartFrameEnd hair, ?_⟩
    rw [exec_cycleStartFrameEnd hair, State.afterFrame_point (by simpa using hstop) s.params.gap]
    rfl
  · refine ⟨_, exec_recordFrameEnd hair, ?_⟩
    rw [exec_recordFrameEnd hair, State.afterFrame_point (by simpa using hstop) s.params.gap]
    rfl
  · refine ⟨_, exec_withdrawalFrameEnd hair, ?_⟩
    rw [exec_withdrawalFrameEnd hair, State.afterFrame_point (by simpa using hstop) s.params.gap]
    rfl

/-- Settles O46. -/
theorem keylessFrameEndsDecideTheLink : Obligations.KeylessFrameEndsDecideTheLink := by
  unfold Obligations.KeylessFrameEndsDecideTheLink
  refine ⟨fun s f => State.nextEnding_eq_some, fun s f hair hstop => ?_, fun s hnext => exec_abortFrameEnd hnext, fun s f hnext => ?_⟩
  · rw [exec_cycleStartFrameEnd hair, State.afterFrame_gap (by simpa using hstop)]
    rfl
  · rw [exec_cycleEndFrameEnd hnext]
    refine ⟨fun hhalts => ?_, fun hstop hwhole hlimit hbare => ?_, fun hstop hwhole hgoes => ?_⟩
    · rw [if_pos hhalts]
      rfl
    · rw [if_neg (by simp [hstop, hwhole]), if_pos (s.goneBare_iff.mpr ⟨hlimit, hbare⟩)]
      rfl
    · rw [if_neg (by simp [hstop, hwhole]), if_neg]
      · rfl
      · rw [s.goneBare_iff]
        tauto

end Sys2Proof.Proofs

/-! The bytes of every frame (R125, R126, R128), and the line that carries them (R127). -/

namespace Sys2Proof.Machine

/-! ## The check code (R126) -/

/-- One bit into the check register, told from the register's top bit (R126). -/
theorem crcBit_eq (r : Word16) (bit : Bool) :
    crcBit r bit = if (bit ^^ r.getLsbD 15) = true then (r <<< 1) ^^^ 0x8BB7#16 else r <<< 1 :=
  rfl

/-- One byte into the check register, bit 7 first (R126). -/
theorem crcByte_eq (r : Word16) (b : Byte) :
    crcByte r b = crcBit (crcBit (crcBit (crcBit (crcBit (crcBit (crcBit (crcBit r
      (b.getLsbD 7)) (b.getLsbD 6)) (b.getLsbD 5)) (b.getLsbD 4)) (b.getLsbD 3)) (b.getLsbD 2)) (b.getLsbD 1)) (b.getLsbD 0) :=
  rfl

theorem checkCode_concat (bytes : List Byte) (b : Byte) : checkCode (bytes ++ [b]) = crcByte (checkCode bytes) b := by
  simp [checkCode, List.foldl_append]

/-! ## The frame's bytes, before and after escaping (R125, R128) -/

/-- An escaped byte is the byte, behind a marker when it is a marker itself (R125). -/
theorem escape_eq (b : Byte) : escape b = (if b == marker then [marker] else []) ++ [b] := by
  by_cases hb : b = marker
  · simp [escape, hb]
  · simp [escape, hb]

theorem AirFrame.typeByte_ne_marker (f : AirFrame) : f.typeByte ≠ marker := by
  cases f <;> simp [AirFrame.typeByte, marker]

theorem AirFrame.covered_length (m : Memory) (f : AirFrame) : (f.covered m).length = f.coveredLength := by
  cases f with
  | record r =>
    simp only [AirFrame.covered, AirFrame.coveredLength, countBytes, bytes16, List.length_append, List.length_cons,
      List.length_nil, readPayload_length]
  | _ => rfl

theorem AirFrame.rawBytes_length (m : Memory) (f : AirFrame) : (f.rawBytes m).length = f.byteLength := by
  rw [AirFrame.rawBytes, List.length_append, List.length_append, f.covered_length]
  cases f with
  | abort => rfl
  | _ =>
    simp only [AirFrame.checkBytes, AirFrame.byteLength, bytes16, List.length_cons, List.length_nil]
    omega

/-- Escaping adds one byte for each marker among the bytes (R125). -/
theorem length_flatMap_escape (bytes : List Byte) : (bytes.flatMap escape).length = bytes.length + bytes.count marker := by
  induction bytes with
  | nil => rfl
  | cons b rest ih =>
    rw [List.flatMap_cons, List.length_append, ih, escape_eq, List.count_cons]
    by_cases hb : (b == marker) = true
    · simp only [hb, if_true, List.length_append, List.length_cons, List.length_nil]
      omega
    · simp only [hb, List.length_append, List.length_cons, List.length_nil]
      simp only [Bool.false_eq_true, if_false, List.length_nil]
      omega

/-- A frame's length on the line: its bytes, and one more for each marker after the type byte (R125, R128). -/
theorem AirFrame.lineBytes_length (m : Memory) (f : AirFrame) :
    (f.lineBytes m).length = f.byteLength + (f.covered m ++ f.checkBytes m).count marker := by
  rw [← f.rawBytes_length m, AirFrame.lineBytes, AirFrame.rawBytes, List.length_append, length_flatMap_escape,
    List.length_append (as := [marker, f.typeByte]), Nat.add_assoc]

theorem AirFrame.checkBytes_eq (m : Memory) {f : AirFrame} (h : f ≠ .abort) :
    f.checkBytes m = bytes16 (checkCode (f.covered m)) := by
  cases f with
  | abort => exact absurd rfl h
  | _ => rfl

/-! ## The flags bytes (R128) -/

theorem getLsbD_zero_append {n k : Nat} (x : BitVec k) {i : Nat} (hi : k ≤ i) : (0#n ++ x).getLsbD i = false := by
  rw [BitVec.getLsbD_append, if_neg (by omega), BitVec.getLsbD_zero]

/-- A byte whose only named bits are 1 and 0. -/
theorem twoFlags_getLsbD (b1 b0 : Bool) :
    let x : Byte := 0#6 ++ BitVec.ofBool b1 ++ BitVec.ofBool b0
    x.getLsbD 0 = b0 ∧ x.getLsbD 1 = b1 ∧ ∀ i, 2 ≤ i → x.getLsbD i = false := by
  have hlow : ∀ b1 b0 : Bool,
      let x : Byte := 0#6 ++ BitVec.ofBool b1 ++ BitVec.ofBool b0
      x.getLsbD 0 = b0 ∧ x.getLsbD 1 = b1 := by decide
  refine ⟨(hlow b1 b0).1, (hlow b1 b0).2, fun i hi => ?_⟩
  have hbit : BitVec.getLsbD (w := 6 + 1 + 1) (0#6 ++ BitVec.ofBool b1 ++ BitVec.ofBool b0) i = false := by
    rw [BitVec.getLsbD_append, BitVec.getLsbD_append, if_neg (by omega), if_neg (by omega), BitVec.getLsbD_zero]
  exact hbit

/-- A byte whose only named bit is 0. -/
theorem oneFlag_getLsbD (b0 : Bool) :
    let x : Byte := 0#7 ++ BitVec.ofBool b0
    x.getLsbD 0 = b0 ∧ ∀ i, 1 ≤ i → x.getLsbD i = false :=
  ⟨by cases b0 <;> rfl, fun _ hi => getLsbD_zero_append (n := 7) (BitVec.ofBool b0) hi⟩

/-- The flags byte of a Record frame, field by field (R128). -/
theorem RecordFrame.flagsByte_fields (f : RecordFrame) :
    f.flagsByte.extractLsb' 0 2 = BitVec.ofNat 2 f.cls ∧ f.flagsByte.getLsbD 2 = decide (f.kind = .feed) ∧
      f.flagsByte.getLsbD 3 = f.stale ∧ ∀ i, 4 ≤ i → f.flagsByte.getLsbD i = false := by
  have hlow : ∀ (stale feed : Bool) (cls : BitVec 2),
      let x : Byte := 0#4 ++ BitVec.ofBool stale ++ BitVec.ofBool feed ++ cls
      x.extractLsb' 0 2 = cls ∧ x.getLsbD 2 = feed ∧ x.getLsbD 3 = stale := by decide
  obtain ⟨hcls, hfeed, hstale⟩ := hlow f.stale (f.kind == .feed) (BitVec.ofNat 2 f.cls)
  refine ⟨hcls, hfeed, hstale, fun i hi => ?_⟩
  have hbit : BitVec.getLsbD (w := 4 + 1 + 1 + 2)
      (0#4 ++ BitVec.ofBool f.stale ++ BitVec.ofBool (f.kind == .feed) ++ BitVec.ofNat 2 f.cls) i = false := by
    rw [BitVec.getLsbD_append, BitVec.getLsbD_append, BitVec.getLsbD_append, if_neg (by omega), if_neg (by omega),
      if_neg (by omega), BitVec.getLsbD_zero]
  exact hbit

end Sys2Proof.Machine

namespace Sys2Proof.Proofs

open Sys2Proof.Machine

/-- Settles O50: one bullet for each layer of a frame, the line bytes, the check code, and the covered fields of each type. -/
theorem frameBytesOnTheLine : Obligations.FrameBytesOnTheLine := by
  unfold Obligations.FrameBytesOnTheLine
  refine ⟨fun m f => ⟨?_, ?_, f.checkBytes_eq m, f.lineBytes_length m, ?_⟩, rfl, fun bytes b => ?_, fun m x => ?_, fun m x => ?_,
    fun m x => rfl, fun m x => ?_, fun b i hi => ?_⟩
  · cases f <;> rfl
  · rintro rfl
    exact ⟨rfl, rfl⟩
  · cases f with
    | record r =>
      simp only [AirFrame.byteLength, AirFrame.coveredLength]
      omega
    | _ => rfl
  · dsimp only
    simp only [checkCode_concat, crcByte_eq, crcBit_eq]
  · refine ⟨_, ?_, twoFlags_getLsbD x.truncatedPrevious x.first⟩
    simp [AirFrame.covered, countBytes_eq, bytes16, hiByte, loByte, byteOf]
  · obtain ⟨hcls, hfeed, hstale, hhigh⟩ := x.flagsByte_fields
    refine ⟨x.flagsByte, readPayload m x.chain 0 x.length, ?_, hcls, hfeed, hstale, hhigh, readPayload_length .., fun i b hi hb => ?_⟩
    · simp [AirFrame.covered, countBytes_eq, bytes16, hiByte, loByte]
    · rw [readPayload_getElem? _ _ _ hi, Nat.zero_add, payloadByte_of_block _ hb]
  · exact ⟨_, rfl, oneFlag_getLsbD x.truncated⟩
  · simp [txdBits, hi]

end Sys2Proof.Proofs

/-! The frame encoder sends the bytes of its frame, and the line carries them byte-time by byte-time (R125 to R127). -/

namespace Sys2Proof.Machine

/-! ## The encoder's place in its frame -/

/-- The encoder sends frame `f`: its accumulator has taken the covered bytes up to its place, and a pair it is in is a marker's
(R125, R126). -/
structure Encoder.Sends (m : Memory) (f : AirFrame) (e : Encoder) : Prop where
  crc : e.crc = checkCode ((f.covered m).take (e.place - 1))
  pair : e.pairFirst = true → (f.rawBytes m)[e.place]? = some marker

variable {m : Memory} {f : AirFrame} {e : Encoder}

theorem Encoder.sends_idle : Encoder.idle.Sends m f := ⟨by simp [Encoder.idle, checkCode], fun h => absurd h nofun⟩

/-- The byte the encoder computes for a place is the frame's byte there, once the accumulator holds the check code (R126). -/
theorem AirFrame.rawBytes_getElem? {crc : Word16} {place : Nat} (hplace : place < f.byteLength)
    (hcrc : 2 + f.coveredLength ≤ place → crc = checkCode (f.covered m)) :
    (f.rawBytes m)[place]? = some (f.byteAt m crc place) := by
  have hlength := f.covered_length m
  match place with
  | 0 => rfl
  | 1 => rfl
  | k + 2 =>
    have hraw : (f.rawBytes m)[k + 2]? = (f.covered m ++ f.checkBytes m)[k]? := rfl
    rw [hraw, AirFrame.byteAt, if_neg (by omega), if_neg (by omega)]
    by_cases hk : k < f.coveredLength
    · rw [if_pos (by omega), List.getElem?_append_left (by omega), Nat.add_sub_cancel, List.getElem?_eq_getElem (by omega),
        Option.getD_some]
    · have hf : f ≠ .abort := by
        rintro rfl
        simp only [AirFrame.byteLength] at hplace
        omega
      have hbyte : f.byteLength = 4 + f.coveredLength := by
        cases f with
        | abort => exact absurd rfl hf
        | _ => rfl
      rw [if_neg (by omega), List.getElem?_append_right (by omega), hlength, f.checkBytes_eq m hf, ← hcrc (by omega), bytes16]
      by_cases hhigh : k = f.coveredLength
      · rw [if_pos (by omega), hhigh, Nat.sub_self]
        rfl
      · rw [if_neg (by omega), show k - f.coveredLength = 1 by omega]
        rfl

theorem AirFrame.coveredLength_add_two_le (f : AirFrame) : f.coveredLength + 2 ≤ f.byteLength := by
  cases f with
  | abort => exact le_rfl
  | _ =>
    simp only [AirFrame.byteLength]
    omega

/-- The accumulator holds the whole check code from the place of its high byte on (R126). -/
theorem Encoder.Sends.crc_eq (h : e.Sends m f) {place : Nat} (hnear : place ≤ e.place + 1) (hplace : 2 + f.coveredLength ≤ place) :
    e.crc = checkCode (f.covered m) := by
  have hlength := f.covered_length m
  rw [h.crc, List.take_of_length_le (by omega)]

theorem Encoder.Sends.byteAt_here (h : e.Sends m f) (hplace : e.place < f.byteLength) :
    (f.rawBytes m)[e.place]? = some (f.byteAt m e.crc e.place) :=
  AirFrame.rawBytes_getElem? hplace (h.crc_eq (Nat.le_succ _))

theorem Encoder.Sends.byteAt_next (h : e.Sends m f) (hplace : e.place + 1 < f.byteLength) :
    (f.rawBytes m)[e.place + 1]? = some (f.byteAt m e.crc (e.place + 1)) :=
  AirFrame.rawBytes_getElem? hplace (h.crc_eq le_rfl)

/-! ## What is still to be sent -/

theorem Encoder.toSend_of_byte {b : Byte} (h : (f.rawBytes m)[e.place]? = some b) :
    e.toSend m f = (if e.pairFirst then [marker] else []) ++ b :: ((f.rawBytes m).drop (e.place + 1)).flatMap escape := by
  obtain ⟨hlt, hb⟩ := List.getElem?_eq_some_iff.1 h
  unfold Encoder.toSend
  rw [List.drop_eq_getElem_cons hlt, hb]

theorem Encoder.toSend_of_end (h : f.byteLength ≤ e.place) : e.toSend m f = [] := by
  unfold Encoder.toSend
  rw [List.drop_eq_nil_of_le (by rwa [f.rawBytes_length])]

/-- At its start a frame is to be sent whole (R127). -/
theorem Encoder.toSend_idle : Encoder.idle.toSend m f = f.lineBytes m := by
  have hmarker : (f.rawBytes m)[Encoder.idle.place]? = some marker := rfl
  have hdrop : (f.rawBytes m).drop (Encoder.idle.place + 1) = f.typeByte :: (f.covered m ++ f.checkBytes m) := rfl
  rw [Encoder.toSend_of_byte hmarker, hdrop, List.flatMap_cons, escape, if_neg f.typeByte_ne_marker]
  rfl

/-- The byte on the line is the first of those still to be sent. -/
theorem Encoder.Sends.current_eq (h : e.Sends m f) : e.current m f = (e.toSend m f).head? := by
  by_cases hplace : e.place < f.byteLength
  · rw [Encoder.current, if_pos hplace, Encoder.toSend_of_byte (h.byteAt_here hplace)]
    cases hpair : e.pairFirst with
    | false => rfl
    | true =>
      rw [← h.byteAt_here hplace, h.pair hpair]
      rfl
  · rw [Encoder.current, if_neg hplace, Encoder.toSend_of_end (Nat.le_of_not_lt hplace)]
    rfl

/-! ## One byte-time of the encoder -/

theorem Encoder.advance_pair (h : e.pairFirst = true) : e.advance m f = { e with pairFirst := false } := by
  rw [Encoder.advance, if_pos h]

theorem Encoder.advance_next (hpair : e.pairFirst = false) (hplace : e.place + 1 < f.byteLength) :
    e.advance m f = { e with
      place := e.place + 1
      pairFirst := decide (2 ≤ e.place + 1) && f.byteAt m e.crc (e.place + 1) == marker
      crc := if 2 ≤ e.place + 1 ∧ e.place + 1 < 2 + f.coveredLength then crcByte e.crc (f.byteAt m e.crc (e.place + 1)) else e.crc } := by
  rw [Encoder.advance, if_neg (by simp [hpair]), if_pos hplace]

theorem Encoder.advance_end (hpair : e.pairFirst = false) (hplace : f.byteLength ≤ e.place + 1) :
    e.advance m f = { e with place := f.byteLength } := by
  rw [Encoder.advance, if_neg (by simp [hpair]), if_neg (by omega)]

/-- The next byte taken into the accumulator where it is covered, the accumulator holds the bytes up to the next place (R126). -/
theorem Encoder.Sends.crc_next (h : e.Sends m f) :
    (if 2 ≤ e.place + 1 ∧ e.place + 1 < 2 + f.coveredLength then crcByte e.crc (f.byteAt m e.crc (e.place + 1)) else e.crc) =
      checkCode ((f.covered m).take e.place) := by
  have hlength := f.covered_length m
  by_cases hcovered : 2 ≤ e.place + 1 ∧ e.place + 1 < 2 + f.coveredLength
  · obtain ⟨k, hk⟩ : ∃ k, e.place = k + 1 := ⟨e.place - 1, by omega⟩
    have hlt : k < (f.covered m).length := by omega
    have hbyte : f.byteAt m e.crc (e.place + 1) = (f.covered m)[k] := by
      rw [AirFrame.byteAt, if_neg (by omega), if_neg (by omega), if_pos hcovered.2, hk]
      simp [hlt]
    rw [if_pos hcovered, hbyte, h.crc, hk, Nat.add_sub_cancel, ← checkCode_concat, List.take_append_getElem hlt]
  · rw [if_neg hcovered, h.crc]
    by_cases hstart : e.place = 0
    · rw [hstart]
    · rw [List.take_of_length_le (by omega), List.take_of_length_le (by omega)]

/-- A byte-time leaves the encoder sending its frame (R125, R126). -/
theorem Encoder.Sends.advance (h : e.Sends m f) : (e.advance m f).Sends m f := by
  cases hpair : e.pairFirst with
  | true =>
    rw [Encoder.advance_pair hpair]
    exact ⟨h.crc, fun hp => absurd hp nofun⟩
  | false =>
    by_cases hplace : e.place + 1 < f.byteLength
    · rw [Encoder.advance_next hpair hplace]
      refine ⟨h.crc_next, fun hp => ?_⟩
      obtain ⟨_, hmarker⟩ := (Bool.and_eq_true _ _).mp hp
      rw [h.byteAt_next hplace, beq_iff_eq.1 hmarker]
    · have hlength := f.covered_length m
      have hbytes := f.coveredLength_add_two_le
      rw [Encoder.advance_end hpair (Nat.le_of_not_lt hplace)]
      refine ⟨h.crc.trans ?_, fun hp => absurd (hpair.symm.trans hp) nofun⟩
      rw [List.take_of_length_le (by omega), List.take_of_length_le (by simp only; omega)]

/-- A byte-time takes the first byte from those still to be sent (R125, R127). -/
theorem Encoder.Sends.toSend_advance (h : e.Sends m f) : (e.advance m f).toSend m f = (e.toSend m f).tail := by
  cases hpair : e.pairFirst with
  | true =>
    have hbyte := h.pair hpair
    rw [Encoder.advance_pair hpair, Encoder.toSend_of_byte (e := { e with pairFirst := false }) hbyte,
      Encoder.toSend_of_byte hbyte, hpair]
    rfl
  | false =>
    by_cases hplace : e.place + 1 < f.byteLength
    · have hnext := h.byteAt_next hplace
      have hdrop : (f.rawBytes m).drop (e.place + 1) =
          f.byteAt m e.crc (e.place + 1) :: (f.rawBytes m).drop (e.place + 1 + 1) := by
        obtain ⟨hlt, hb⟩ := List.getElem?_eq_some_iff.1 hnext
        rw [List.drop_eq_getElem_cons hlt, hb]
      have htype : (decide (2 ≤ e.place + 1) && f.byteAt m e.crc (e.place + 1) == marker) =
          (f.byteAt m e.crc (e.place + 1) == marker) := by
        by_cases hstart : e.place = 0
        · rw [hstart]
          exact (beq_eq_false_iff_ne.2 f.typeByte_ne_marker).symm
        · rw [decide_eq_true (by omega), Bool.true_and]
      rw [Encoder.advance_next hpair hplace, Encoder.toSend_of_byte hnext,
        Encoder.toSend_of_byte (h.byteAt_here (Nat.lt_of_succ_lt hplace)), hpair, htype, hdrop, List.flatMap_cons, escape_eq]
      simp
    · rw [Encoder.advance_end hpair (Nat.le_of_not_lt hplace), Encoder.toSend_of_end le_rfl]
      by_cases hlast : e.place < f.byteLength
      · rw [Encoder.toSend_of_byte (h.byteAt_here hlast), hpair, List.drop_eq_nil_of_le]
        · rfl
        · rw [f.rawBytes_length]
          exact Nat.le_of_not_lt hplace
      · rw [Encoder.toSend_of_end (Nat.le_of_not_lt hlast)]
        rfl

/-! ## The line, byte-time by byte-time (R127) -/

/-- The state with other bytes on the line and the encoder moved on, CYC as given: all that byte-times of a frame on air change. -/
def State.withLine (s : State) (line : List Byte) (e : Encoder) (cyc : Bool) : State :=
  { s with line := line, encoder := e, link := { s.link with cyc := cyc } }

theorem step_of_onAir {s : State} (hpending : s.pending = []) (hstate : s.link.state = .running) (hair : s.engine.onAir = some f) :
    step s = .next (s.withLine (s.encoder.current s.pool.mem f).toList (s.encoder.advance s.pool.mem f) false) := by
  rw [step_of_pending_nil hpending, byteTime_of_keyed (by rw [hstate]; rfl), State.passByte_of_onAir hair]
  rfl

/-- The byte on TXD while bytes of an earlier frame are finished (R127). -/
theorem State.txdByte_of_waiting {s : State} {w : Waiting} (hkeyed : s.link.state.keyed = true) (hair : s.engine.onAir = none)
    (hw : s.encoder.waiting = some w) : s.txdByte = w.lead.head? := by
  unfold State.txdByte
  rw [if_pos hkeyed, hair, hw]

theorem run_succ_of_step {M : Host.Core} {s t : M.State} (h : M.step s = .next t) (i : Nat) : M.run (i + 1) s = M.run i t := by
  simp only [Host.Core.run, h]

/-- While its frame is on air each byte-time takes one byte from those still to be sent, and CYC is low behind the first (R108, R127). -/
theorem run_of_onAir (i : Nat) : ∀ s : State, s.pending = [] → s.link.state = .running → s.engine.onAir = some f →
    s.encoder.Sends s.pool.mem f → ∃ line e, core.run i s = .next (s.withLine line e (if i = 0 then s.link.cyc else false)) ∧
      e.Sends s.pool.mem f ∧ e.toSend s.pool.mem f = (s.encoder.toSend s.pool.mem f).drop i := by
  induction i with
  | zero => exact fun s _ _ _ hsends => ⟨s.line, s.encoder, rfl, hsends, rfl⟩
  | succ i ih =>
    intro s hpending hstate hair hsends
    obtain ⟨line, e, hrun, he, hto⟩ :=
      ih (s.withLine (s.encoder.current s.pool.mem f).toList (s.encoder.advance s.pool.mem f) false) hpending hstate hair
        hsends.advance
    refine ⟨line, e, (run_succ_of_step (M := core) (step_of_onAir hpending hstate hair) i).trans (hrun.trans ?_), he,
      hto.trans ?_⟩
    · rw [if_neg (Nat.succ_ne_zero i)]
      exact congrArg (fun c => Host.Outcome.next (s.withLine line e c)) (ite_self false)
    · change ((s.encoder.advance s.pool.mem f).toSend s.pool.mem f).drop i = _
      rw [hsends.toSend_advance, ← List.drop_one, List.drop_drop, Nat.add_comm]

/-- What the line shows of `bytes` after `i` byte-times: the byte on TXD, and what is left up to the frame's end. -/
structure State.Shows (t : State) (bytes : List Byte) (i : Nat) : Prop where
  txd : t.txdByte = bytes[i]?
  rest : t.bytesToFrameEnd = bytes.drop i

theorem State.shows_of_onAir {t : State} {bytes : List Byte} {i : Nat} (hstate : t.link.state = .running)
    (hair : t.engine.onAir = some f) (hsends : t.encoder.Sends t.pool.mem f) (hto : t.encoder.toSend t.pool.mem f = bytes.drop i) :
    t.Shows bytes i := by
  have hkeyed : t.link.state.keyed = true := by
    rw [hstate]
    rfl
  refine ⟨?_, ?_⟩
  · rw [State.txdByte_of_onAir hkeyed hair, hsends.current_eq, hto, List.head?_drop]
  · rw [State.bytesToFrameEnd, hair]
    exact hto

/-- From its start a frame's bytes go on the line (R127). -/
theorem run_of_frameStart {s : State} (hpending : s.pending = []) (hstate : s.link.state = .running)
    (hair : s.engine.onAir = some f) (hidle : s.encoder = Encoder.idle) (i : Nat) :
    ∃ line e, core.run i s = .next (s.withLine line e (if i = 0 then s.link.cyc else false)) ∧
      (s.withLine line e (if i = 0 then s.link.cyc else false)).Shows (f.lineBytes s.pool.mem) i := by
  obtain ⟨line, e, hrun, he, hto⟩ := run_of_onAir i s hpending hstate hair (hidle ▸ Encoder.sends_idle)
  rw [hidle, Encoder.toSend_idle] at hto
  exact ⟨line, e, hrun, State.shows_of_onAir hstate hair he hto⟩

/-- Behind the bytes still to be finished a frame's bytes go on the line, and it is on air from its marker on (R89, R90, R127). -/
theorem run_of_waiting (i : Nat) : ∀ (s : State) (lead : List Byte), s.pending = [] → s.link.state = .running →
    s.engine.onAir = none → s.encoder.waiting = some { lead := lead, frame := f } → lead ≠ [] →
      ∃ t, core.run i s = .next t ∧ t.Shows (lead ++ f.lineBytes s.pool.mem) i ∧
        t.engine.onAir = if i < lead.length then none else some f := by
  induction i with
  | zero =>
    intro s lead _ hstate hair hw hlead
    refine ⟨s, rfl, ⟨?_, ?_⟩, ?_⟩
    · rw [State.txdByte_of_waiting (by rw [hstate]; rfl) hair hw]
      cases lead with
      | nil => exact absurd rfl hlead
      | cons b rest => rfl
    · rw [State.bytesToFrameEnd, hair, hw]
      rfl
    · rw [hair, if_pos (List.length_pos_iff.2 hlead)]
  | succ i ih =>
    intro s lead hpending hstate hair hw hlead
    have hstep : step s = .next (s.finishLead { lead := lead, frame := f }).cycFalls := by
      rw [step_of_pending_nil hpending, byteTime_of_keyed (by rw [hstate]; rfl), State.passByte_of_waiting hair hw]
    rw [run_succ_of_step (M := core) hstep]
    match lead, hlead with
    | [b], _ =>
      obtain ⟨line, e, hrun, hshows⟩ :=
        run_of_frameStart (s := (s.finishLead { lead := [b], frame := f }).cycFalls) (f := f) hpending hstate rfl rfl i
      refine ⟨_, hrun, ⟨hshows.txd, hshows.rest⟩, ?_⟩
      exact (if_neg (Nat.not_lt_of_le (Nat.le_add_left 1 i))).symm
    | b :: c :: more, _ =>
      obtain ⟨t, hrun, hshows, hon⟩ :=
        ih (s.finishLead { lead := b :: c :: more, frame := f }).cycFalls (c :: more) hpending hstate rfl rfl nofun
      refine ⟨t, hrun, ⟨hshows.txd, hshows.rest⟩, hon.trans ?_⟩
      simp only [List.length_cons, Nat.succ_lt_succ_iff]

end Sys2Proof.Machine

namespace Sys2Proof.Proofs

open Sys2Proof.Machine

/-- Settles O51, by induction on the byte-times: each takes the first byte from those still to be sent. -/
theorem lineCarriesTheFrame : Obligations.LineCarriesTheFrame := by
  unfold Obligations.LineCarriesTheFrame
  refine ⟨fun s f hpending hstate hair hidle => ⟨fun i b hb => ?_, fun i _ => ?_⟩,
    fun s w hpending hstate hair hw hlead => ⟨fun i b hb => ?_, fun i _ => ?_⟩⟩
  · obtain ⟨line, e, hrun, hshows⟩ := run_of_frameStart hpending hstate hair hidle i
    exact ⟨_, hrun, hshows.txd.trans hb⟩
  · obtain ⟨line, e, hrun, hshows⟩ := run_of_frameStart hpending hstate hair hidle i
    exact ⟨_, hrun, hshows.rest, rfl⟩
  · obtain ⟨t, hrun, hshows, hon⟩ := run_of_waiting i s w.lead hpending hstate hair hw hlead
    exact ⟨t, hrun, hshows.txd.trans hb, hon⟩
  · obtain ⟨t, hrun, hshows, _⟩ := run_of_waiting i s w.lead hpending hstate hair hw hlead
    exact ⟨t, hrun, hshows.rest⟩

end Sys2Proof.Proofs
